-- ==== Sys2Proof/Word.lean ====
section
/-! DEFINITION. The widths of BPE-SCAN (00_scope.md R11, 10_state.md R20): every value is unsigned, bit 0 is
the least significant bit of every vector. -/

namespace Sys2Proof

/-- A register of the host port: 32 bits (10_state.md R38). -/
abbrev Word := BitVec 32

/-- A coordinate, a line index: 16 bits (10_state.md R22, R42). -/
abbrev Coord := BitVec 16

/-- A cell value: N bits with `1 ≤ N ≤ 16` (00_scope.md R6), held in 16; the upper bits are 0 (10_state.md R30 I7). -/
abbrev Cell := BitVec 16

/-- One host bus transaction `{we, a[3:0], wdata[31:0]}` (30_encoding.md R90). -/
abbrev BusWord := BitVec 37

end Sys2Proof
end

