-- ==== Sys2Proof/Config.lean ====
section
/-! DEFINITION. What one build of BPE-SCAN fixes: the parameters ROWS, COLS, N and T_UNIT (00_scope.md R5 to R7),
their legal ranges, and the constants derived from them (R8). The spec leaves them open; the model carries them
as data (log 1) and every statement is over all legal values. The spec leaves no VALUE undefined
(93_implementation_defined.md), so there is no free value here. -/

namespace Sys2Proof

/-- The build-time parameters (00_scope.md R5 to R7). F_TICK (R9) is read by no rule and is not carried (log 14). -/
structure Params where
  rows  : Nat
  cols  : Nat
  n     : Nat
  tUnit : Nat
deriving DecidableEq, Repr

/-- The legal ranges of R5, R6 and R7. Outside them no model exists (93_implementation_defined.md W1). -/
abbrev Params.Legal (p : Params) : Prop :=
  1 ≤ p.rows ∧ p.rows ≤ 65535 ∧ 1 ≤ p.cols ∧ p.cols ≤ 65535 ∧ 1 ≤ p.n ∧ p.n ≤ 16 ∧
    1 ≤ p.tUnit ∧ p.tUnit * 2 ^ (p.n - 1) ≤ 2 ^ 32 - 1

/-- T_LINE (R8): the ticks one line is active in a sweep. -/
def Params.tLine (p : Params) : Nat := p.tUnit * (2 ^ p.n - 1)

/-- T_SWEEP (R8): the ticks of one whole sweep. -/
def Params.tSweep (p : Params) : Nat := p.rows * p.tLine

/-- HOLD_MAX (R8): the longest hold. -/
def Params.holdMax (p : Params) : Nat := p.tUnit * 2 ^ (p.n - 1)

/-- VMAX (R8): the largest cell value. -/
def Params.vMax (p : Params) : Nat := 2 ^ p.n - 1

/-- The reference configuration (R10): 8 lines of 8 cells, 4 bits, one tick for plane 0. -/
def Params.reference : Params := { rows := 8, cols := 8, n := 4, tUnit := 1 }

/-- The tiny configuration (R10), used for tick-by-tick traces. -/
def Params.tiny : Params := { rows := 2, cols := 2, n := 2, tUnit := 1 }

end Sys2Proof
end

