-- ==== Sys2Proof/Syntax.lean ====
section
/-! DEFINITION. The operations of BPE-SCAN: one constructor per row of spec/opcode_table.json (00_scope.md R1 says
what an operation is; 30_encoding.md R106 how the table is read), and the encoded forms the decoder reads. -/

namespace Sys2Proof

/-- One operation. A bus write carries its 32-bit value, also where the rule ignores it; a bus read has no
operand, because wdata of a read is ignored whatever it is (30_encoding.md R90). The FSM rows have no operand
(R101): what they act on is the scan position, and for the FATAL rows the transaction on the port (log 6). -/
inductive Instr where
  | wrCtrl (v : Word)                               -- WR_CTRL: R191
  | rdCtrl                                          -- RD_CTRL: R192
  | wrStatus (v : Word)                             -- WR_STATUS: R193
  | rdStatus                                        -- RD_STATUS: R194
  | rdCmd                                           -- RD_CMD: R200
  | wrCellAddr (v : Word)                           -- WR_CELL_ADDR: R201
  | rdCellAddr                                      -- RD_CELL_ADDR: R202
  | wrCellData (v : Word)                           -- WR_CELL_DATA: R203
  | rdCellData                                      -- RD_CELL_DATA: R204
  | wrMissCnt (v : Word)                            -- WR_MISS_CNT: R214
  | rdMissCnt                                       -- RD_MISS_CNT: R205
  | wrGeom (v : Word)                               -- WR_GEOM: R214
  | rdGeom                                          -- RD_GEOM: R206
  | wrDepth (v : Word)                              -- WR_DEPTH: R214
  | rdDepth                                         -- RD_DEPTH: R207
  | wrTunit (v : Word)                              -- WR_TUNIT: R214
  | rdTunit                                         -- RD_TUNIT: R208
  | wrHwLines (v : Word)                            -- WR_HW_LINES: R209
  | rdHwLines                                       -- RD_HW_LINES: R210
  | wrScanpos (v : Word)                            -- WR_SCANPOS: R214
  | rdScanpos                                       -- RD_SCANPOS: R211
  | wrHold (v : Word)                               -- WR_HOLD: R214
  | rdHold                                          -- RD_HOLD: R212
  | wrFaultval (v : Word)                           -- WR_FAULTVAL: R214
  | rdFaultval                                      -- RD_FAULTVAL: R213
  | wrRsv13 (v : Word)                              -- WR_RSV13: R215
  | rdRsv13                                         -- RD_RSV13: R215
  | wrRsv14 (v : Word)                              -- WR_RSV14: R215
  | rdRsv14                                         -- RD_RSV14: R215
  | wrRsv15 (v : Word)                              -- WR_RSV15: R215
  | rdRsv15                                         -- RD_RSV15: R215
  | cmdNop                                          -- CMD.NOP: R196
  | cmdStart                                        -- CMD.START: R197
  | cmdSwapRequest                                  -- CMD.SWAP_REQUEST: R198
  | cmdReserved (v : Word)                          -- CMD.RESERVED: R199
  | evtDeactivateLines                              -- EVT.DEACTIVATE_LINES: R173
  | evtActivateLine (n : BitVec 16)                 -- EVT.ACTIVATE_LINE: R170
  | evtShiftOutPlane (bits : Nat)                   -- EVT.SHIFT_OUT_PLANE: R171
  | evtWaitTicks (n : BitVec 32)                    -- EVT.WAIT_TICKS: R172
  | evtSweepComplete (swapped : Bool)               -- EVT.SWEEP_COMPLETE: R174
  | evtHalted (code : BitVec 2)                     -- EVT.HALTED: R175
  | fsmIdleStay                                     -- FSM.IDLE_STAY: R142
  | fsmBeginSweep                                   -- FSM.BEGIN_SWEEP: R143
  | fsmHold                                         -- FSM.HOLD: R146
  | fsmNextPlane                                    -- FSM.NEXT_PLANE: R147
  | fsmLineDone                                     -- FSM.LINE_DONE: R147
  | fsmNextLine                                     -- FSM.NEXT_LINE: R148
  | fsmLastLine                                     -- FSM.LAST_LINE: R148
  | fsmSweepEnd                                     -- FSM.SWEEP_END: R149
  | fsmHaltStay                                     -- FSM.HALT_STAY: R152
  | fsmFatalIdle                                    -- FSM.FATAL_IDLE: R244
  | fsmFatalSweep                                   -- FSM.FATAL_SWEEP: R244
  | encPlaneBit (i : BitVec 4) (v : BitVec 16)      -- ENC.PLANE_BIT: R120
  | encPlaneRow (i : BitVec 4) (y : BitVec 16)      -- ENC.PLANE_ROW: R121
deriving DecidableEq, Repr

/-- The formats of the opcode table (30_encoding.md, head). CMD words are 37-bit bus words (R106), so they are of
format `bus` here. -/
inductive Format where
  | bus | evt | fsm | enc
deriving DecidableEq, Repr

/-- An encoded operation: a bit string of `len` bits, `val` read with bit 0 least significant, and the format it
is written in. The formats' patterns overlap (log 12), so a bit string alone does not name a row. -/
structure Code where
  fmt : Format
  len : Nat
  val : Nat
deriving DecidableEq, Repr

/-- Why the decoder refuses a code. -/
inductive DecodeError where
  | badLength           -- the bit string has not the fixed length of its format (R103)
  | valueTooWide        -- the value does not fit the stated length
  | unusedTag           -- EVT tag 6 or 7: never emitted (R100, V17)
  | noSuchTransition    -- an FSM code that R101 does not list
  | operandOutOfRange   -- an EVT or ENC operand outside the range its rule states (R100, R106, R120, R121)
deriving DecidableEq, Repr

end Sys2Proof
end

