-- ==== Sys2Proof/WellFormed.lean ====
section
/-! DEFINITION. Which operations the spec's operand ranges admit, for given parameters. -/

namespace Sys2Proof

/-- An operation is well formed when its operands are in the range its rule states: a reserved command is not one
of 0, 1, 2 (30_encoding.md R92); a line index is below ROWS (R96); a plane vector has COLS bits (R95); a wait is
between 1 and HOLD_MAX ticks (42_gpio_sequencer.md R172); a HALTED event carries cause 2 or 3 (R175); an encoder
row has `i < N` and `y < ROWS` (40_bitplane_encoder.md R120, R121). Everything else is in range by its type. -/
def Instr.wf (p : Params) : Instr → Bool
  | .cmdReserved v => decide (2 < v.toNat)
  | .evtActivateLine n => decide (n.toNat < p.rows)
  | .evtShiftOutPlane bits => decide (bits < 2 ^ p.cols)
  | .evtWaitTicks n => decide (1 ≤ n.toNat ∧ n.toNat ≤ p.holdMax)
  | .evtHalted code => decide (2 ≤ code.toNat)
  | .encPlaneBit i _ => decide (i.toNat < p.n)
  | .encPlaneRow i y => decide (i.toNat < p.n ∧ y.toNat < p.rows)
  | .wrCtrl _ | .rdCtrl | .wrStatus _ | .rdStatus | .rdCmd | .wrCellAddr _ | .rdCellAddr => true
  | .wrCellData _ | .rdCellData | .wrMissCnt _ | .rdMissCnt | .wrGeom _ | .rdGeom => true
  | .wrDepth _ | .rdDepth | .wrTunit _ | .rdTunit | .wrHwLines _ | .rdHwLines => true
  | .wrScanpos _ | .rdScanpos | .wrHold _ | .rdHold | .wrFaultval _ | .rdFaultval => true
  | .wrRsv13 _ | .rdRsv13 | .wrRsv14 _ | .rdRsv14 | .wrRsv15 _ | .rdRsv15 => true
  | .cmdNop | .cmdStart | .cmdSwapRequest => true
  | .evtDeactivateLines | .evtSweepComplete _ => true
  | .fsmIdleStay | .fsmBeginSweep | .fsmHold | .fsmNextPlane | .fsmLineDone | .fsmNextLine => true
  | .fsmLastLine | .fsmSweepEnd | .fsmHaltStay | .fsmFatalIdle | .fsmFatalSweep => true

end Sys2Proof
end

