-- ==== Sys2Proof/Decode.lean ====
section
/-! DEFINITION. From encoded forms to operations and back (30_encoding.md). `decode` is total: every code gives an
operation or a named refusal, and what it gives is well formed. `encode` is written from the same tables. The rows
of the table overlap between formats, so a code carries its format (log 12). -/

namespace Sys2Proof

/-! ## The BUS and CMD formats (R90, R92) -/

/-- The field `we` of a transaction: bit 36. -/
def busWe (t : BusWord) : Bool := t.getLsbD 36

/-- The field `a` of a transaction: bits 35:32. -/
def busIndex (t : BusWord) : BitVec 4 := t.extractLsb' 32 4

/-- The field `wdata` of a transaction: bits 31:0. -/
def busData (t : BusWord) : Word := t.extractLsb' 0 32

/-- The transaction `{we, a, wdata}` (R90). -/
def busWord (we : Bool) (a : BitVec 4) (v : Word) : BusWord := BitVec.ofBool we ++ a ++ v

/-- The command a value written to CMD selects: the whole 32-bit number counts (R92). -/
def decodeCommand (v : Word) : Instr :=
  if v = 0#32 then .cmdNop
  else if v = 1#32 then .cmdStart
  else if v = 2#32 then .cmdSwapRequest
  else .cmdReserved v

/-- The write transactions, one for each register index 0 to 15 (10_state.md R38). -/
def writeOps : Vector (Word → Instr) 16 :=
  #v[.wrCtrl, .wrStatus, decodeCommand, .wrCellAddr, .wrCellData, .wrMissCnt, .wrGeom, .wrDepth,
     .wrTunit, .wrHwLines, .wrScanpos, .wrHold, .wrFaultval, .wrRsv13, .wrRsv14, .wrRsv15]

/-- The read transactions, one for each register index 0 to 15 (10_state.md R38). -/
def readOps : Vector Instr 16 :=
  #v[.rdCtrl, .rdStatus, .rdCmd, .rdCellAddr, .rdCellData, .rdMissCnt, .rdGeom, .rdDepth,
     .rdTunit, .rdHwLines, .rdScanpos, .rdHold, .rdFaultval, .rdRsv13, .rdRsv14, .rdRsv15]

/-- A write transaction (R90). -/
def decodeWrite (a : BitVec 4) (v : Word) : Instr := writeOps.get a.toFin v

/-- A read transaction; its wdata is ignored (R90). -/
def decodeRead (a : BitVec 4) : Instr := readOps.get a.toFin

/-- Every 37-bit word is a transaction (R90, R102: there is no illegal one). -/
def decodeBus (t : BusWord) : Instr :=
  if busWe t then decodeWrite (busIndex t) (busData t) else decodeRead (busIndex t)

/-! ## The FSM format (R101): the code column of its table -/

def fsmRows : List (Nat × Instr) :=
  [(0b0000000, .fsmIdleStay), (0b0000011, .fsmBeginSweep), (0b0010010, .fsmHold), (0b0010011, .fsmNextPlane),
   (0b0010100, .fsmLineDone), (0b0100011, .fsmNextLine), (0b0100110, .fsmLastLine), (0b0110000, .fsmSweepEnd),
   (0b1001000, .fsmHaltStay), (0b0001000, .fsmFatalIdle), (0b0011000, .fsmFatalSweep)]

def decodeFsm (v : Nat) : Except DecodeError Instr :=
  match fsmRows.lookup v with
  | some i => .ok i
  | none => .error .noSuchTransition

/-! ## The EVT format (R100): a 3-bit tag, then the argument -/

/-- An event code of `3 + w` bits: tag and argument of `w` bits. The width of a plane vector is COLS (R95). -/
def decodeEvt (p : Params) (w tag arg : Nat) : Except DecodeError Instr :=
  match tag with
  | 0 => if w = 0 then .ok .evtDeactivateLines else .error .badLength
  | 1 => if w = 16 then .ok (.evtActivateLine (BitVec.ofNat 16 arg)) else .error .badLength
  | 2 => if w = p.cols then .ok (.evtShiftOutPlane arg) else .error .badLength
  | 3 => if w = 32 then .ok (.evtWaitTicks (BitVec.ofNat 32 arg)) else .error .badLength
  | 4 => if w = 1 then .ok (.evtSweepComplete (arg == 1)) else .error .badLength
  | 5 => if w = 2 then .ok (.evtHalted (BitVec.ofNat 2 arg)) else .error .badLength
  | _ => .error .unusedTag

/-! ## The ENC format (R106): the 21-bit label {f, i[3:0], operand[15:0]} -/

def decodeEnc (v : Nat) : Instr :=
  if v / 2 ^ 20 = 0 then .encPlaneBit (BitVec.ofNat 4 (v / 2 ^ 16)) (BitVec.ofNat 16 v)
  else .encPlaneRow (BitVec.ofNat 4 (v / 2 ^ 16)) (BitVec.ofNat 16 v)

/-! ## All formats -/

/-- The operation of a code whose value fits its length, before the operand ranges are checked. -/
def decodeFields (p : Params) (c : Code) : Except DecodeError Instr :=
  match c.fmt with
  | .bus => if c.len = 37 then .ok (decodeBus (BitVec.ofNat 37 c.val)) else .error .badLength
  | .fsm => if c.len = 7 then decodeFsm c.val else .error .badLength
  | .enc => if c.len = 21 then .ok (decodeEnc c.val) else .error .badLength
  | .evt => if 3 ≤ c.len then decodeEvt p (c.len - 3) (c.val / 2 ^ (c.len - 3)) (c.val % 2 ^ (c.len - 3)) else .error .badLength

/-- The decoder: every code gives a well-formed operation or a named refusal. -/
def decode (p : Params) (c : Code) : Except DecodeError Instr :=
  if c.val < 2 ^ c.len then
    match decodeFields p c with
    | .ok i => if i.wf p then .ok i else .error .operandOutOfRange
    | .error e => .error e
  else .error .valueTooWide

/-! ## The encoder -/

/-- The code of one bus transaction. -/
def busCode (t : BusWord) : Code := { fmt := .bus, len := 37, val := t.toNat }

def encodeWrite (a : BitVec 4) (v : Word) : Code := busCode (busWord true a v)

/-- A read carries 0 in the bits the block ignores. -/
def encodeRead (a : BitVec 4) : Code := busCode (busWord false a 0#32)

def encodeFsm (v : Nat) : Code := { fmt := .fsm, len := 7, val := v }

def encodeEvt (tag w arg : Nat) : Code := { fmt := .evt, len := w + 3, val := tag * 2 ^ w + arg }

def encodeEnc (f : Nat) (i : BitVec 4) (x : BitVec 16) : Code :=
  { fmt := .enc, len := 21, val := f * 2 ^ 20 + i.toNat * 2 ^ 16 + x.toNat }

/-- The code of an operation, for given parameters (COLS is the width of a plane vector). -/
def encode (p : Params) : Instr → Code
  | .wrCtrl v => encodeWrite 0 v
  | .rdCtrl => encodeRead 0
  | .wrStatus v => encodeWrite 1 v
  | .rdStatus => encodeRead 1
  | .rdCmd => encodeRead 2
  | .wrCellAddr v => encodeWrite 3 v
  | .rdCellAddr => encodeRead 3
  | .wrCellData v => encodeWrite 4 v
  | .rdCellData => encodeRead 4
  | .wrMissCnt v => encodeWrite 5 v
  | .rdMissCnt => encodeRead 5
  | .wrGeom v => encodeWrite 6 v
  | .rdGeom => encodeRead 6
  | .wrDepth v => encodeWrite 7 v
  | .rdDepth => encodeRead 7
  | .wrTunit v => encodeWrite 8 v
  | .rdTunit => encodeRead 8
  | .wrHwLines v => encodeWrite 9 v
  | .rdHwLines => encodeRead 9
  | .wrScanpos v => encodeWrite 10 v
  | .rdScanpos => encodeRead 10
  | .wrHold v => encodeWrite 11 v
  | .rdHold => encodeRead 11
  | .wrFaultval v => encodeWrite 12 v
  | .rdFaultval => encodeRead 12
  | .wrRsv13 v => encodeWrite 13 v
  | .rdRsv13 => encodeRead 13
  | .wrRsv14 v => encodeWrite 14 v
  | .rdRsv14 => encodeRead 14
  | .wrRsv15 v => encodeWrite 15 v
  | .rdRsv15 => encodeRead 15
  | .cmdNop => encodeWrite 2 0
  | .cmdStart => encodeWrite 2 1
  | .cmdSwapRequest => encodeWrite 2 2
  | .cmdReserved v => encodeWrite 2 v
  | .evtDeactivateLines => encodeEvt 0 0 0
  | .evtActivateLine n => encodeEvt 1 16 n.toNat
  | .evtShiftOutPlane bits => encodeEvt 2 p.cols bits
  | .evtWaitTicks n => encodeEvt 3 32 n.toNat
  | .evtSweepComplete swapped => encodeEvt 4 1 swapped.toNat
  | .evtHalted code => encodeEvt 5 2 code.toNat
  | .fsmIdleStay => encodeFsm 0b0000000
  | .fsmBeginSweep => encodeFsm 0b0000011
  | .fsmHold => encodeFsm 0b0010010
  | .fsmNextPlane => encodeFsm 0b0010011
  | .fsmLineDone => encodeFsm 0b0010100
  | .fsmNextLine => encodeFsm 0b0100011
  | .fsmLastLine => encodeFsm 0b0100110
  | .fsmSweepEnd => encodeFsm 0b0110000
  | .fsmHaltStay => encodeFsm 0b1001000
  | .fsmFatalIdle => encodeFsm 0b0001000
  | .fsmFatalSweep => encodeFsm 0b0011000
  | .encPlaneBit i v => encodeEnc 0 i v
  | .encPlaneRow i y => encodeEnc 1 i y

/-! ## The opcode table's own reading of a bus word (R90, R106) -/

/-- The 35 BUS and CMD rows of spec/opcode_table.json: mnemonic, match, mask. The three exact commands come
first, because a row with a longer mask takes precedence (R90). -/
def exactRows : List (String × BusWord × BusWord) :=
  [("CMD.NOP", 0x1200000000#37, 0x1FFFFFFFFF#37), ("CMD.START", 0x1200000001#37, 0x1FFFFFFFFF#37),
   ("CMD.SWAP_REQUEST", 0x1200000002#37, 0x1FFFFFFFFF#37)]

def writeRows : List (String × BusWord × BusWord) :=
  [("WR_CTRL", 0x1000000000#37, 0x1F00000000#37), ("WR_STATUS", 0x1100000000#37, 0x1F00000000#37),
   ("CMD.RESERVED", 0x1200000000#37, 0x1F00000000#37), ("WR_CELL_ADDR", 0x1300000000#37, 0x1F00000000#37),
   ("WR_CELL_DATA", 0x1400000000#37, 0x1F00000000#37), ("WR_MISS_CNT", 0x1500000000#37, 0x1F00000000#37),
   ("WR_GEOM", 0x1600000000#37, 0x1F00000000#37), ("WR_DEPTH", 0x1700000000#37, 0x1F00000000#37),
   ("WR_TUNIT", 0x1800000000#37, 0x1F00000000#37), ("WR_HW_LINES", 0x1900000000#37, 0x1F00000000#37),
   ("WR_SCANPOS", 0x1A00000000#37, 0x1F00000000#37), ("WR_HOLD", 0x1B00000000#37, 0x1F00000000#37),
   ("WR_FAULTVAL", 0x1C00000000#37, 0x1F00000000#37), ("WR_RSV13", 0x1D00000000#37, 0x1F00000000#37),
   ("WR_RSV14", 0x1E00000000#37, 0x1F00000000#37), ("WR_RSV15", 0x1F00000000#37, 0x1F00000000#37)]

def readRows : List (String × BusWord × BusWord) :=
  [("RD_CTRL", 0x0000000000#37, 0x1F00000000#37), ("RD_STATUS", 0x0100000000#37, 0x1F00000000#37),
   ("RD_CMD", 0x0200000000#37, 0x1F00000000#37), ("RD_CELL_ADDR", 0x0300000000#37, 0x1F00000000#37),
   ("RD_CELL_DATA", 0x0400000000#37, 0x1F00000000#37), ("RD_MISS_CNT", 0x0500000000#37, 0x1F00000000#37),
   ("RD_GEOM", 0x0600000000#37, 0x1F00000000#37), ("RD_DEPTH", 0x0700000000#37, 0x1F00000000#37),
   ("RD_TUNIT", 0x0800000000#37, 0x1F00000000#37), ("RD_HW_LINES", 0x0900000000#37, 0x1F00000000#37),
   ("RD_SCANPOS", 0x0A00000000#37, 0x1F00000000#37), ("RD_HOLD", 0x0B00000000#37, 0x1F00000000#37),
   ("RD_FAULTVAL", 0x0C00000000#37, 0x1F00000000#37), ("RD_RSV13", 0x0D00000000#37, 0x1F00000000#37),
   ("RD_RSV14", 0x0E00000000#37, 0x1F00000000#37), ("RD_RSV15", 0x0F00000000#37, 0x1F00000000#37)]

def busRows : List (String × BusWord × BusWord) := exactRows ++ writeRows ++ readRows

/-- The row of the table a word matches: the first of `busRows` with `t AND mask = match`. -/
def tableMnemonic (t : BusWord) : Option String :=
  (busRows.find? fun r => t &&& r.2.2 == r.2.1).map (·.1)

/-- The table's mnemonic of an operation. -/
def mnemonic : Instr → String
  | .wrCtrl _ => "WR_CTRL"
  | .rdCtrl => "RD_CTRL"
  | .wrStatus _ => "WR_STATUS"
  | .rdStatus => "RD_STATUS"
  | .rdCmd => "RD_CMD"
  | .wrCellAddr _ => "WR_CELL_ADDR"
  | .rdCellAddr => "RD_CELL_ADDR"
  | .wrCellData _ => "WR_CELL_DATA"
  | .rdCellData => "RD_CELL_DATA"
  | .wrMissCnt _ => "WR_MISS_CNT"
  | .rdMissCnt => "RD_MISS_CNT"
  | .wrGeom _ => "WR_GEOM"
  | .rdGeom => "RD_GEOM"
  | .wrDepth _ => "WR_DEPTH"
  | .rdDepth => "RD_DEPTH"
  | .wrTunit _ => "WR_TUNIT"
  | .rdTunit => "RD_TUNIT"
  | .wrHwLines _ => "WR_HW_LINES"
  | .rdHwLines => "RD_HW_LINES"
  | .wrScanpos _ => "WR_SCANPOS"
  | .rdScanpos => "RD_SCANPOS"
  | .wrHold _ => "WR_HOLD"
  | .rdHold => "RD_HOLD"
  | .wrFaultval _ => "WR_FAULTVAL"
  | .rdFaultval => "RD_FAULTVAL"
  | .wrRsv13 _ => "WR_RSV13"
  | .rdRsv13 => "RD_RSV13"
  | .wrRsv14 _ => "WR_RSV14"
  | .rdRsv14 => "RD_RSV14"
  | .wrRsv15 _ => "WR_RSV15"
  | .rdRsv15 => "RD_RSV15"
  | .cmdNop => "CMD.NOP"
  | .cmdStart => "CMD.START"
  | .cmdSwapRequest => "CMD.SWAP_REQUEST"
  | .cmdReserved _ => "CMD.RESERVED"
  | .evtDeactivateLines => "EVT.DEACTIVATE_LINES"
  | .evtActivateLine _ => "EVT.ACTIVATE_LINE"
  | .evtShiftOutPlane _ => "EVT.SHIFT_OUT_PLANE"
  | .evtWaitTicks _ => "EVT.WAIT_TICKS"
  | .evtSweepComplete _ => "EVT.SWEEP_COMPLETE"
  | .evtHalted _ => "EVT.HALTED"
  | .fsmIdleStay => "FSM.IDLE_STAY"
  | .fsmBeginSweep => "FSM.BEGIN_SWEEP"
  | .fsmHold => "FSM.HOLD"
  | .fsmNextPlane => "FSM.NEXT_PLANE"
  | .fsmLineDone => "FSM.LINE_DONE"
  | .fsmNextLine => "FSM.NEXT_LINE"
  | .fsmLastLine => "FSM.LAST_LINE"
  | .fsmSweepEnd => "FSM.SWEEP_END"
  | .fsmHaltStay => "FSM.HALT_STAY"
  | .fsmFatalIdle => "FSM.FATAL_IDLE"
  | .fsmFatalSweep => "FSM.FATAL_SWEEP"
  | .encPlaneBit _ _ => "ENC.PLANE_BIT"
  | .encPlaneRow _ _ => "ENC.PLANE_ROW"

/-! ## A bare number of bits, as the opcode table's rows are numbered -/

/-- The formats and fixed lengths a row of the table can have, those that name their row by more bits first (R90:
the longer mask takes precedence): FSM all 7 bits, BUS 5, EVT 3, ENC 1. -/
def tableShapes (p : Params) : List (Format × Nat) :=
  [(.fsm, 7), (.bus, 37), (.evt, 3), (.evt, 19), (.evt, p.cols + 3), (.evt, 35), (.evt, 4), (.evt, 5), (.enc, 21)]

/-- Does a row of `len` bits stand in `nbits` bits: exactly, or rounded up to whole bytes? -/
def fitsIn (nbits len : Nat) : Bool := len == nbits || (len + 7) / 8 * 8 == nbits

def decodesOk (p : Params) (c : Code) : Bool :=
  match decode p c with
  | .ok _ => true
  | .error _ => false

/-- The code a bare number stands for, by `tableShapes`' precedence; a number that no row reads is a bus word, which
the decoder then refuses for its length (log 12). -/
def tableCode (p : Params) (nbits w : Nat) : Code :=
  (((tableShapes p).filter fun s => fitsIn nbits s.2).map fun s => { fmt := s.1, len := s.2, val := w }).find? (decodesOk p)
    |>.getD { fmt := .bus, len := nbits, val := w }

/-- The operation the decoder reads from a bare number of bits, at the parameters State.reset has (log 2, log 12). -/
def decodeTableWord (nbits w : Nat) : Option Instr :=
  match decode Params.reference (tableCode Params.reference nbits w) with
  | .ok i => some i
  | .error _ => none

end Sys2Proof
end

