-- ==== Sys2Proof/Machine/State.lean ====
section
/-! DEFINITION. The state of BPE-SCAN: every item of 10_state.md R20 under its own name, the port's pins (R54),
the parameters, and the schedule of events still to arrive; the reasons a step can stop; the state after reset (R57). -/

namespace Sys2Proof.Machine

/-- PHASE (R21): the scan state machine's state. Codes 5 to 7 are never held (R98) and cannot be written here. -/
inductive Phase where
  | idle | sweepPlane | advanceLine | sweepComplete | halt
deriving DecidableEq, Repr

/-- A pin-sequencer event of TRACE (30_encoding.md R100). -/
inductive Event where
  | deactivateLines
  | activateLine (n : BitVec 16)
  | shiftOutPlane (bits : Nat)
  | waitTicks (n : BitVec 32)
  | sweepComplete (swapped : Bool)
  | halted (code : BitVec 2)
deriving DecidableEq, Repr

/-- One event arriving from outside (00_scope.md R13): an event on `tick`, an assertion of `rst`, or an encoded
operation. A code of format `bus` is a bus transaction on the port. Codes of the other formats reach no pin of the
hardware: they let a single row of the opcode table run on its own (log 4). -/
inductive Input where
  | tick
  | reset
  | word (c : Code)
deriving DecidableEq, Repr

/-- The cells of one frame buffer (R28): cell `(x, y)` stands under `y * 65536 + x`, addresses strictly rising, and a
cell not listed reads 0, its reset value (R57; log 9). -/
abbrev Frame := List (Nat × Cell)

/-- The state (R20), the port's pins (R54), and the model's own fields. -/
structure State where
  phase     : Phase            -- PHASE, R21
  line      : BitVec 16        -- LINE, R22
  plane     : BitVec 8         -- PLANE, R23
  hold      : BitVec 32        -- HOLD, R24
  rowEn     : Nat              -- ROW_EN as a number, bit y for line y, R25 (log 10)
  colOut    : Nat              -- COL_OUT as a number, bit x for column x, R26 (log 10)
  rsel      : Bool             -- RSEL, R27
  fb0       : Frame            -- FB[0], R28
  fb1       : Frame            -- FB[1], R28
  run       : Bool             -- RUN, R31
  sweepDone : Bool             -- SWEEP_DONE, R32
  swapReq   : Bool             -- SWAP_REQ, R33
  wdrop     : Bool             -- WDROP, R34
  cmderr    : Bool             -- CMDERR, R35
  err       : BitVec 2         -- ERR, R36
  ie        : Bool             -- IE, R39
  cellX     : Coord            -- CELL_X, R42
  cellY     : Coord            -- CELL_Y, R42
  hwLines   : Word             -- HW_LINES, R48
  missCnt   : Word             -- MISS_CNT, R44
  faultVal  : Word             -- FAULTVAL, R51
  trace     : List Event       -- TRACE, oldest first, R55
  port      : BusWord          -- the port's input pins we, a, wdata, R54 (log 5, log 6)
  rdata     : Word             -- the port's output pins: what the last read returned, R54 (log 5)
  cfg       : Params           -- the build's parameters, which nothing writes (log 1)
  encOut    : Nat              -- the encoder's wires after an ENC row run on its own (log 5)
  inputs    : List Input       -- the events still to arrive, first one first (log 3)
deriving DecidableEq, Repr

/-- Where the machine has no move. None is an instruction's outcome on every path. -/
inductive Fault where
  /-- Raised by the FSM rows when the transition's condition (30_encoding.md R101) does not hold: no other transition
  exists. Safe: the hardware never takes the transition there (log 6). -/
  | transitionNotEnabled
  /-- Raised by the EVT and ENC rows for an operand outside the range their rule states. Safe (log 7). -/
  | operandOutOfRange
  /-- Raised by a read or write of CELL_DATA whose pointer names no cell; no run reaches such a pointer
  (10_state.md R30 I6). Safe (log 8). -/
  | cellOutsideGeometry
  /-- Raised by a plane load whose line or plane does not exist; no run reaches it (10_state.md R30 I2). Safe (log 8). -/
  | scanOutsideGeometry
  /-- Raised by a tick that begins in ADVANCE_LINE or SWEEP_COMPLETE, where R141 has no case; no run reaches it
  (41_scan_fsm.md R150). Safe (log 11). -/
  | tickInTransientPhase
deriving DecidableEq, Repr

/-- What the model declines. -/
inductive Refusal where
  /-- Raised by `exec` alone, for an instruction that has no meaning yet. Safe. -/
  | notModelled (mnemonic : String)
  /-- Raised by `step` when the parameters are outside 00_scope.md R5 to R7: no model exists
  (93_implementation_defined.md W1). Safe (log 1). -/
  | illegalParameters
  /-- Raised by `step` for a scheduled code that no row of the table reads, or whose value does not fit its
  length (93_implementation_defined.md W2). Safe (log 12, log 15). -/
  | undecodable (e : DecodeError)
deriving DecidableEq, Repr

/-- What executing one operation answers. -/
abbrev Out := Host.Outcome State Fault Refusal

/-- The state after reset of a build with parameters `p`: the table of R57. -/
def State.resetWith (p : Params) : State :=
  { phase := .idle, line := 0, plane := 0, hold := 0, rowEn := 0, colOut := 0, rsel := false, fb0 := [], fb1 := [],
    run := false, sweepDone := false, swapReq := false, wdrop := false, cmderr := false, err := 0, ie := false,
    cellX := 0, cellY := 0, hwLines := 0, missCnt := 0, faultVal := 0, trace := [],
    port := 0, rdata := 0, cfg := p, encOut := 0, inputs := [] }

/-- The machine right after reset, at the reference configuration (log 2), with nothing scheduled (log 3). -/
def State.reset : State := State.resetWith Params.reference

end Sys2Proof.Machine
end

