-- ==== Sys2Proof/Machine/Memory.lean ====
section
/-! DEFINITION. The cell space (20_memory.md R60 to R62): one frame buffer as a list in canonical form, and the host's
and the scan engine's views of the pair (00_scope.md R12). -/

namespace Sys2Proof.Machine

/-- The address of cell `(x, y)` inside a buffer (log 9; the order is not observable, R61). -/
def cellKey (y x : Nat) : Nat := y * 65536 + x

/-- What a cell nothing has written reads as: 0, its reset value (10_state.md R57). -/
def unlistedCell : Cell := 0

/-- Read one cell. -/
def Frame.read : Frame → Nat → Cell
  | [], _ => unlistedCell
  | (j, c) :: r, k => if j = k then c else Frame.read r k

/-- The entry for `k` put in front of `r`, or nothing where `v` is what an unlisted cell reads as. -/
def Frame.entry (k : Nat) (v : Cell) (r : Frame) : Frame := if v = unlistedCell then r else (k, v) :: r

/-- Write one cell, keeping the canonical form. -/
def Frame.write : Frame → Nat → Cell → Frame
  | [], k, v => Frame.entry k v []
  | (j, c) :: r, k, v =>
    if k < j then Frame.entry k v ((j, c) :: r)
    else if k = j then Frame.entry k v r
    else (j, c) :: Frame.write r k v

/-- Every address of the list is above `lo`, they rise strictly, and no entry is what an unlisted cell reads as. -/
def Frame.wfAbove : Nat → Frame → Bool
  | _, [] => true
  | lo, (k, v) :: r => decide (lo ≤ k) && decide (v ≠ unlistedCell) && Frame.wfAbove (k + 1) r

/-- The canonical form. -/
def Frame.wf (f : Frame) : Bool := Frame.wfAbove 0 f

/-- Every listed cell is a cell of the geometry and holds a value of N bits (10_state.md R28, R30 I7). -/
def Frame.fits (p : Params) (f : Frame) : Bool :=
  f.all fun e => decide (e.1 / 65536 < p.rows) && decide (e.1 % 65536 < p.cols) && decide (e.2.toNat < 2 ^ p.n)

/-- Is `(x, y)` a cell of the geometry (00_scope.md R5)? -/
def cellExists (p : Params) (y x : Nat) : Bool := decide (y < p.rows) && decide (x < p.cols)

/-- `FB[b]` (10_state.md R28). -/
def buffer (s : State) (b : Bool) : Frame := if b then s.fb1 else s.fb0

/-- The state with `FB[b]` replaced. -/
def setBuffer (b : Bool) (f : Frame) (s : State) : State := if b then { s with fb1 := f } else { s with fb0 := f }

/-- The write side is `FB[RSEL xor 1]` (20_memory.md R62). -/
def writeSide (s : State) : Bool := !s.rsel

/-- `ScanRead(y, x)`: the scan engine reads the read side, `FB[RSEL]` (R12, R62). -/
def scanRead (s : State) (y x : Nat) : Cell := Frame.read (buffer s s.rsel) (cellKey y x)

/-- `CellRead()`: the host reads the write side at the pointer (R12, R62). -/
def cellRead (s : State) : Cell := Frame.read (buffer s (writeSide s)) (cellKey s.cellY.toNat s.cellX.toNat)

/-- `CellWrite(v)` of a cell value: the host writes the write side at the pointer (R12, R62). -/
def cellWrite (v : Cell) (s : State) : State :=
  setBuffer (writeSide s) (Frame.write (buffer s (writeSide s)) (cellKey s.cellY.toNat s.cellX.toNat) v) s

end Sys2Proof.Machine
end

