-- ==== Sys2Proof/Machine/Operands.lean ====
section
/-! DEFINITION. How operands are assembled (30_encoding.md section 3), the encoder functions (40_bitplane_encoder.md),
and the values register reads return (10_state.md section 4), STATUS apart (Flags.lean). -/

namespace Sys2Proof.Machine

/-! ## Operands -/

/-- The column of a CELL_ADDR value: bits 15:0 (R93). -/
def coordX (v : Word) : Coord := v.extractLsb' 0 16

/-- The line of a CELL_ADDR value: bits 31:16 (R93). -/
def coordY (v : Word) : Coord := v.extractLsb' 16 16

/-- The check of WR CELL_ADDR: `x < COLS and y < ROWS` (R93, 43_host_operations.md R201). -/
def coordInGeometry (p : Params) (v : Word) : Bool := cellExists p (coordY v).toNat (coordX v).toNat

/-- The cell value of a CELL_DATA value: `v mod 2^N`, it wraps (R94). -/
def cellValue (p : Params) (v : Word) : Cell := BitVec.ofNat 16 (v.toNat % 2 ^ p.n)

/-- `onehot(n)`: the vector with only bit `n` set (00_scope.md R11, R96). -/
def onehot (n : Nat) : Nat := 2 ^ n

/-- `T_UNIT << i`: the hold of plane `i` (R97). -/
def holdTicks (p : Params) (i : Nat) : BitVec 32 := BitVec.ofNat 32 (p.tUnit * 2 ^ i)

/-! ## The encoder -/

/-- `PlaneBit(v, i) = v[i]`: the bit-select multiplexer (40_bitplane_encoder.md R120, R128). -/
def planeBit (v : Cell) (i : Nat) : Bool := v.getLsbD i

/-- The LUT form `(v and MASK[i]) != 0` with `MASK[i] = 2^i` (R129). -/
def planeBitLut (v : Cell) (i : Nat) : Bool := (v.toNat &&& 2 ^ i) != 0

/-- A vector as a number, its first entry in bit 0 (R95). -/
def packBits : List Bool → Nat
  | [] => 0
  | b :: r => b.toNat + 2 * packBits r

/-- `PlaneRow(y, i)` of a frame with `cols` columns: bit `x` is `PlaneBit` of cell `(x, y)` (R121). -/
def frameRow (cols : Nat) (f : Frame) (y i : Nat) : Nat :=
  packBits ((List.range cols).map fun x => planeBit (Frame.read f (cellKey y x)) i)

/-- `PlaneRow(y, i)` on the read side (R121). -/
def planeRow (s : State) (y i : Nat) : Nat := frameRow s.cfg.cols (buffer s s.rsel) y i

/-- `PlaneGrid(i)[y][x]` on the read side (R122); never stored, a name for stating properties. -/
def planeGrid (s : State) (i y x : Nat) : Bool := planeBit (scanRead s y x) i

/-! ## What register reads return -/

/-- PHASE codes (30_encoding.md R98). -/
def phaseCode : Phase → Nat
  | .idle => 0
  | .sweepPlane => 1
  | .advanceLine => 2
  | .sweepComplete => 3
  | .halt => 4

/-- CTRL: `zext_32(IE)` (43_host_operations.md R192). -/
def ctrlWord (s : State) : Word := BitVec.ofNat 32 s.ie.toNat

/-- CELL_ADDR: `CELL_Y * 2^16 + CELL_X` (R202). -/
def cellAddrWord (s : State) : Word := BitVec.ofNat 32 (s.cellY.toNat * 2 ^ 16 + s.cellX.toNat)

/-- GEOM: `ROWS * 2^16 + COLS` (R206). -/
def geomWord (s : State) : Word := BitVec.ofNat 32 (s.cfg.rows * 2 ^ 16 + s.cfg.cols)

/-- DEPTH: `N` (R207). -/
def depthWord (s : State) : Word := BitVec.ofNat 32 s.cfg.n

/-- TUNIT: `T_UNIT` (R208). -/
def tunitWord (s : State) : Word := BitVec.ofNat 32 s.cfg.tUnit

/-- SCANPOS: `LINE + 2^16 * PLANE + 2^24 * code(PHASE)` (R211). -/
def scanposWord (s : State) : Word :=
  BitVec.ofNat 32 (s.line.toNat + 2 ^ 16 * s.plane.toNat + 2 ^ 24 * phaseCode s.phase)

end Sys2Proof.Machine
end

