-- ==== Sys2Proof/Machine/Flags.lean ====
section
/-! DEFINITION. The flags (10_state.md section 3): STATUS as a read packs it and a write clears it, the output pins
`irq` and `halted`, and the saturating miss counter. -/

namespace Sys2Proof.Machine

/-- HALTED: `PHASE = HALT` (10_state.md R37); the `halted` pin (R53). -/
def halted (s : State) : Bool := decide (s.phase = .halt)

/-- The `irq` pin: `SWEEP_DONE and IE and not HALTED`, a level (60_exceptions.md R249). -/
def irq (s : State) : Bool := s.sweepDone && s.ie && !halted s

/-- The interrupt is pending (R248). -/
def irqPending (s : State) : Bool := s.sweepDone

/-- STATUS as a read returns it (43_host_operations.md R194). -/
def statusWord (s : State) : Word :=
  BitVec.ofNat 32 (s.sweepDone.toNat + 2 * s.swapReq.toNat + 4 * s.rsel.toNat + 8 * s.run.toNat +
    16 * (halted s).toNat + 32 * s.wdrop.toNat + 64 * s.cmderr.toNat + 256 * s.err.toNat)

/-- A write of `v` to STATUS: bits 0, 5 and 6 clear their flag where `v` has 1 (R193). -/
def clearFlags (v : Word) (s : State) : State :=
  { s with
    sweepDone := s.sweepDone && !v.getLsbD 0
    wdrop := s.wdrop && !v.getLsbD 5
    cmderr := s.cmderr && !v.getLsbD 6 }

/-- `min(MISS_CNT + 1, 0xFFFF_FFFF)` (60_exceptions.md R241). -/
def missNext (m : Word) : Word := BitVec.ofNat 32 (min (m.toNat + 1) 0xFFFFFFFF)

end Sys2Proof.Machine
end

