-- ==== Sys2Proof/Machine/Ops.lean ====
section
/-! DEFINITION. The operations the meanings share: the pin sequencer's (42_gpio_sequencer.md), taking the halt and the
reset that leaves it (60_exceptions.md R244, R246), the guards of a bus step (43_host_operations.md R190), the procedures
of the tick step (41_scan_fsm.md R143 to R149). -/

namespace Sys2Proof.Machine

/-- Continue with the next state; a stop stays a stop. -/
def andThen (o : Out) (f : State → Out) : Out :=
  match o with
  | .next s => f s
  | .fault r => .fault r
  | .refused r => .refused r

/-- `emit E` (00_scope.md R12): TRACE grows at its end (10_state.md R55). -/
def emit (e : Event) (s : State) : State := { s with trace := s.trace ++ [e] }

/-! ## The pin sequencer -/

/-- `ACTIVATE_LINE(n)` (42_gpio_sequencer.md R170). -/
def activateLine (n : BitVec 16) (s : State) : State := emit (.activateLine n) { s with rowEn := onehot n.toNat }

/-- `SHIFT_OUT_PLANE(bits)` (R171). -/
def shiftOutPlane (bits : Nat) (s : State) : State := emit (.shiftOutPlane bits) { s with colOut := bits }

/-- `WAIT_TICKS(n)` (R172). -/
def waitTicks (n : BitVec 32) (s : State) : State := emit (.waitTicks n) { s with hold := n }

/-- `DEACTIVATE_LINES` (R173). -/
def deactivateLines (s : State) : State := emit .deactivateLines { s with rowEn := 0, colOut := 0 }

/-! ## The halt and the reset -/

/-- `Halt(code, val)`, the block's trap entry, in the sub-steps of 60_exceptions.md R244. -/
def halt (code : BitVec 2) (val : Word) (s : State) : State :=
  emit (.halted code)
    { deactivateLines { s with err := code, faultVal := val, run := false } with hold := 0, phase := .halt }

/-- `Reset()` (70_reset_and_hazards.md R280), the only exit from HALT (60_exceptions.md R246). The parameters are the
build's, and the rest of the schedule is still to arrive (log 3). -/
def resetBlock (s : State) : State := { State.resetWith s.cfg with inputs := s.inputs }

/-! ## The bus step -/

/-- Every write is ignored in HALT (43_host_operations.md R190 b). -/
def busWrite (f : State → Out) (s : State) : Out := if s.phase = .halt then .next s else f s

/-- A read returns its value on `rdata` and changes no state, in every phase (R190 a). -/
def busRead (v : Word) (s : State) : Out := .next { s with rdata := v }

/-- A write that changes nothing, in every phase (R196, R214, R215). -/
def busIgnore (s : State) : Out := .next s

/-- The cell pointer names a cell (10_state.md R30 I6), else the access has nowhere to go (log 8). -/
def withCell (f : State → Out) (s : State) : Out :=
  if cellExists s.cfg s.cellY.toNat s.cellX.toNat then f s else .fault .cellOutsideGeometry

/-- START's check fails: the 32-bit HW_LINES is not ROWS (R197, 60_exceptions.md R243). -/
def linesMismatch (s : State) : Bool := decide (s.hwLines ≠ BitVec.ofNat 32 s.cfg.rows)

/-- The fatal condition that the transaction on the port raises, as cause and value (60_exceptions.md R240): a bad
coordinate, or a START with a wrong line count while `RUN = 0`. -/
def portFatal (s : State) : Option (BitVec 2 × Word) :=
  if s.port = busWord true 3 (busData s.port) ∧ coordInGeometry s.cfg (busData s.port) = false then
    some (2, busData s.port)
  else if s.port = busWord true 2 1 ∧ s.run = false ∧ linesMismatch s = true then some (3, s.hwLines)
  else none

/-! ## The tick step -/

/-- `LoadPlane()` once the line and the plane exist (41_scan_fsm.md R144). -/
def loadPlaneAt (s : State) : State :=
  waitTicks (holdTicks s.cfg s.plane.toNat) (shiftOutPlane (planeRow s s.line.toNat s.plane.toNat) s)

/-- The line and the plane exist (10_state.md R30 I2). -/
def scanExists (s : State) : Bool := decide (s.line.toNat < s.cfg.rows) && decide (s.plane.toNat < s.cfg.n)

/-- `LoadPlane()` (R144); a line or plane that does not exist has no cells to read (log 8). -/
def loadPlane (s : State) : Out := if scanExists s then .next (loadPlaneAt s) else .fault .scanOutsideGeometry

/-- `BeginSweep()` (R143). -/
def beginSweep (s : State) : Out :=
  loadPlane (activateLine 0 { s with line := 0, plane := 0, phase := .sweepPlane })

/-- The NEXT_PLANE branch of `PlaneExpired()` (R147). -/
def nextPlane (s : State) : Out := loadPlane { s with plane := s.plane + 1 }

/-- The NEXT_LINE branch of `AdvanceLine()` (R148). -/
def nextLine (s : State) : Out :=
  loadPlane (activateLine (s.line + 1) { s with line := s.line + 1, plane := 0, phase := .sweepPlane })

/-- Sub-steps 1 to 3 of `SweepComplete()` (R149): the swap (20_memory.md R72) or the deadline miss (60_exceptions.md R241). -/
def endSweep (s : State) : State :=
  if s.swapReq then
    { emit (.sweepComplete true) { s with sweepDone := true, rsel := !s.rsel, swapReq := false } with phase := .idle }
  else
    { emit (.sweepComplete false) { s with sweepDone := true, missCnt := missNext s.missCnt } with phase := .idle }

/-- `SweepComplete()` (R149): sub-step 4 begins the next sweep, on the new read side. -/
def sweepComplete (s : State) : Out := beginSweep (endSweep s)

/-- `AdvanceLine()` (R148). -/
def advanceLine (s : State) : Out :=
  if s.line.toNat < s.cfg.rows - 1 then nextLine s else sweepComplete { s with phase := .sweepComplete }

/-- `PlaneExpired()` (R147). -/
def planeExpired (s : State) : Out :=
  if s.plane.toNat < s.cfg.n - 1 then nextPlane s else advanceLine { s with phase := .advanceLine }

/-- `HOLD <- HOLD - 1` (R146). -/
def holdDown (s : State) : State := { s with hold := s.hold - 1 }

/-- `Tick()` (R141). A tick cannot begin in a transient phase, where R141 has no case (R150, log 11). -/
def tick (s : State) : Out :=
  match s.phase with
  | .halt => .next s
  | .idle => if s.run then beginSweep s else .next s
  | .sweepPlane => if 1 < s.hold.toNat then .next (holdDown s) else planeExpired s
  | .advanceLine => .fault .tickInTransientPhase
  | .sweepComplete => .fault .tickInTransientPhase

/-- `k` tick steps with no other step between them (30_encoding.md R104, TICK k). -/
def ticks : Nat → State → Out
  | 0, s => .next s
  | k + 1, s => andThen (tick s) (ticks k)

/-- An FSM row taken where its condition holds; elsewhere the machine has no such move (30_encoding.md R101, log 6). -/
def transition (enabled : Bool) (o : Out) : Out := if enabled then o else .fault .transitionNotEnabled

/-- A pin or encoder operation whose operand is in the range its rule states, else no meaning is given (log 7). -/
def inRange (ok : Bool) (o : Out) : Out := if ok then o else .fault .operandOutOfRange

end Sys2Proof.Machine
end

