-- ==== Sys2Proof/Machine/Commands.lean ====
section
/-! DEFINITION. The four CMD rows: what a write to CMD does, by the whole value written (43_host_operations.md section 3). -/

namespace Sys2Proof.Machine

/-- `NOP`: no state change, no flag, no event (R196). -/
def execCmdNop (s : State) : Out := busIgnore s

/-- `START`: nothing if already started; a wrong line count is the fatal condition of cause 3; else `RUN <- 1` (R197,
60_exceptions.md R243). -/
def execCmdStart (s : State) : Out :=
  busWrite (fun s => .next
    (if s.run then s else if linesMismatch s then halt 3 s.hwLines s else { s with run := true })) s

/-- `SWAP_REQUEST`: `SWAP_REQ <- 1` (R198). -/
def execCmdSwapRequest (s : State) : Out := busWrite (fun s => .next { s with swapReq := true }) s

/-- A reserved command: `CMDERR <- 1` and nothing else (R199). -/
def execCmdReserved (_v : Word) (s : State) : Out := busWrite (fun s => .next { s with cmderr := true }) s

end Sys2Proof.Machine
end

