-- ==== Sys2Proof/Machine/Encoder.lean ====
section
/-! DEFINITION. The two ENC rows: an encoder function evaluated on its own (40_bitplane_encoder.md). The encoder writes no
state of the block (R123); the result stands on the encoder's wires, `encOut`, the model's own field (log 5). -/

namespace Sys2Proof.Machine

/-- `PlaneBit(v, i)`, `i < N`; the low N bits of `v` are used (R120, 30_encoding.md R106). -/
def execEncPlaneBit (i : BitVec 4) (v : BitVec 16) (s : State) : Out :=
  inRange (decide (i.toNat < s.cfg.n))
    (.next { s with encOut := (planeBit (BitVec.ofNat 16 (v.toNat % 2 ^ s.cfg.n)) i.toNat).toNat })

/-- `PlaneRow(y, i)` on the read side, `y < ROWS` and `i < N` (R121). -/
def execEncPlaneRow (i : BitVec 4) (y : BitVec 16) (s : State) : Out :=
  inRange (decide (i.toNat < s.cfg.n ∧ y.toNat < s.cfg.rows)) (.next { s with encOut := planeRow s y.toNat i.toNat })

end Sys2Proof.Machine
end

