-- ==== Sys2Proof/Machine/HostRegs.lean ====
section
/-! DEFINITION. The 31 BUS rows: reads and writes of the register port (43_host_operations.md sections 2, 4 and 5). -/

namespace Sys2Proof.Machine

/-! ## CTRL and STATUS -/

/-- `WR CTRL, v`: `IE <- v[0]` (R191). -/
def execWrCtrl (v : Word) (s : State) : Out := busWrite (fun s => .next { s with ie := v.getLsbD 0 }) s

/-- `RD CTRL` (R192). -/
def execRdCtrl (s : State) : Out := busRead (ctrlWord s) s

/-- `WR STATUS, v`: write 1 to clear (R193). -/
def execWrStatus (v : Word) (s : State) : Out := busWrite (fun s => .next (clearFlags v s)) s

/-- `RD STATUS` (R194). -/
def execRdStatus (s : State) : Out := busRead (statusWord s) s

/-! ## CMD (its writes are in Commands.lean) -/

/-- `RD CMD` returns 0 always (R200). -/
def execRdCmd (s : State) : Out := busRead 0 s

/-! ## The cell pointer and the cell window -/

/-- `WR CELL_ADDR, v`: the checked pointer; a coordinate outside the geometry is the fatal condition of cause 2 and leaves
the pointer unchanged (R201, 60_exceptions.md R242). -/
def execWrCellAddr (v : Word) (s : State) : Out :=
  busWrite (fun s => .next
    (if coordInGeometry s.cfg v then { s with cellX := coordX v, cellY := coordY v } else halt 2 v s)) s

/-- `RD CELL_ADDR` (R202). -/
def execRdCellAddr (s : State) : Out := busRead (cellAddrWord s) s

/-- `WR CELL_DATA, v`, the store: dropped with WDROP set while a swap request is pending (R203). -/
def execWrCellData (v : Word) (s : State) : Out :=
  busWrite (fun s =>
    if s.swapReq then .next { s with wdrop := true }
    else withCell (fun s => .next (cellWrite (cellValue s.cfg v) s)) s) s

/-- `RD CELL_DATA`, the load, zero-extended (R204). -/
def execRdCellData (s : State) : Out := withCell (fun s => busRead ((cellRead s).setWidth 32) s) s

/-! ## Counters, constants and debug registers: reads -/

/-- `RD MISS_CNT` (R205). -/
def execRdMissCnt (s : State) : Out := busRead s.missCnt s

/-- `RD GEOM` (R206). -/
def execRdGeom (s : State) : Out := busRead (geomWord s) s

/-- `RD DEPTH` (R207). -/
def execRdDepth (s : State) : Out := busRead (depthWord s) s

/-- `RD TUNIT` (R208). -/
def execRdTunit (s : State) : Out := busRead (tunitWord s) s

/-- `WR HW_LINES, v`: all 32 bits, no check (R209). -/
def execWrHwLines (v : Word) (s : State) : Out := busWrite (fun s => .next { s with hwLines := v }) s

/-- `RD HW_LINES` (R210). -/
def execRdHwLines (s : State) : Out := busRead s.hwLines s

/-- `RD SCANPOS` (R211). -/
def execRdScanpos (s : State) : Out := busRead (scanposWord s) s

/-- `RD HOLD` (R212). -/
def execRdHold (s : State) : Out := busRead s.hold s

/-- `RD FAULTVAL` (R213). -/
def execRdFaultval (s : State) : Out := busRead s.faultVal s

/-! ## Writes to read-only registers: no state change, no flag, for every `v` (R214) -/

/-- `WR MISS_CNT, v` (R214). -/
def execWrMissCnt (_v : Word) (s : State) : Out := busIgnore s

/-- `WR GEOM, v` (R214). -/
def execWrGeom (_v : Word) (s : State) : Out := busIgnore s

/-- `WR DEPTH, v` (R214). -/
def execWrDepth (_v : Word) (s : State) : Out := busIgnore s

/-- `WR TUNIT, v` (R214). -/
def execWrTunit (_v : Word) (s : State) : Out := busIgnore s

/-- `WR SCANPOS, v` (R214). -/
def execWrScanpos (_v : Word) (s : State) : Out := busIgnore s

/-- `WR HOLD, v` (R214). -/
def execWrHold (_v : Word) (s : State) : Out := busIgnore s

/-- `WR FAULTVAL, v` (R214). -/
def execWrFaultval (_v : Word) (s : State) : Out := busIgnore s

/-! ## Unmapped indices: read 0, writes change nothing and set no flag (R215) -/

/-- `WR RSV13, v` (R215). -/
def execWrRsv13 (_v : Word) (s : State) : Out := busIgnore s

/-- `RD RSV13` (R215). -/
def execRdRsv13 (s : State) : Out := busRead 0 s

/-- `WR RSV14, v` (R215). -/
def execWrRsv14 (_v : Word) (s : State) : Out := busIgnore s

/-- `RD RSV14` (R215). -/
def execRdRsv14 (s : State) : Out := busRead 0 s

/-- `WR RSV15, v` (R215). -/
def execWrRsv15 (_v : Word) (s : State) : Out := busIgnore s

/-- `RD RSV15` (R215). -/
def execRdRsv15 (s : State) : Out := busRead 0 s

end Sys2Proof.Machine
end

