-- ==== Sys2Proof/Machine/ScanFsm.lean ====
section
/-! DEFINITION. The eleven FSM rows: each transition of the scan state machine taken on its own, where the condition of
30_encoding.md R101 holds (log 6). A tick step takes the chain of them that its state selects (41_scan_fsm.md R141, R150);
`tick` in Ops.lean is that step, written from the pseudocode, over the same shared operations. -/

namespace Sys2Proof.Machine

/-- FSM.IDLE_STAY: a tick in IDLE with `RUN = 0` changes nothing (41_scan_fsm.md R142). -/
def execFsmIdleStay (s : State) : Out := transition (decide (s.phase = .idle) && !s.run) (.next s)

/-- FSM.BEGIN_SWEEP: from IDLE with `RUN = 1` (R143). -/
def execFsmBeginSweep (s : State) : Out := transition (decide (s.phase = .idle) && s.run) (beginSweep s)

/-- FSM.HOLD: in SWEEP_PLANE with `HOLD > 1` (R146). -/
def execFsmHold (s : State) : Out :=
  transition (decide (s.phase = .sweepPlane) && decide (1 < s.hold.toNat)) (.next (holdDown s))

/-- FSM.NEXT_PLANE: in SWEEP_PLANE with `HOLD = 1` and `PLANE < N - 1` (R147). -/
def execFsmNextPlane (s : State) : Out :=
  transition (decide (s.phase = .sweepPlane) && decide (s.hold.toNat = 1) && decide (s.plane.toNat < s.cfg.n - 1)) (nextPlane s)

/-- FSM.LINE_DONE: in SWEEP_PLANE with `HOLD = 1` and `PLANE = N - 1`, into the transient ADVANCE_LINE (R147). -/
def execFsmLineDone (s : State) : Out :=
  transition (decide (s.phase = .sweepPlane) && decide (s.hold.toNat = 1) && decide (s.plane.toNat = s.cfg.n - 1))
    (.next { s with phase := .advanceLine })

/-- FSM.NEXT_LINE: from ADVANCE_LINE with `LINE < ROWS - 1` (R148). -/
def execFsmNextLine (s : State) : Out :=
  transition (decide (s.phase = .advanceLine) && decide (s.line.toNat < s.cfg.rows - 1)) (nextLine s)

/-- FSM.LAST_LINE: from ADVANCE_LINE with `LINE = ROWS - 1`, into the transient SWEEP_COMPLETE (R148). -/
def execFsmLastLine (s : State) : Out :=
  transition (decide (s.phase = .advanceLine) && decide (s.line.toNat = s.cfg.rows - 1))
    (.next { s with phase := .sweepComplete })

/-- FSM.SWEEP_END: from SWEEP_COMPLETE to IDLE, with the swap or the deadline miss (R149 sub-steps 1 to 3). -/
def execFsmSweepEnd (s : State) : Out := transition (decide (s.phase = .sweepComplete)) (.next (endSweep s))

/-- FSM.HALT_STAY: a tick in HALT changes nothing (R152). -/
def execFsmHaltStay (s : State) : Out := transition (decide (s.phase = .halt)) (.next s)

/-- The halt that the transaction on the port causes (60_exceptions.md R244); with no fatal transaction there, no
transition is taken (log 6). -/
def haltFromPort (s : State) : Out :=
  match portFatal s with
  | some (code, val) => .next (halt code val s)
  | none => .fault .transitionNotEnabled

/-- FSM.FATAL_IDLE: `Halt(code, val)` in a bus step, from IDLE (60_exceptions.md R244). -/
def execFsmFatalIdle (s : State) : Out := transition (decide (s.phase = .idle)) (haltFromPort s)

/-- FSM.FATAL_SWEEP: `Halt(code, val)` in a bus step, from SWEEP_PLANE (60_exceptions.md R244). -/
def execFsmFatalSweep (s : State) : Out := transition (decide (s.phase = .sweepPlane)) (haltFromPort s)

end Sys2Proof.Machine
end

