-- ==== Sys2Proof/Machine/Sequencer.lean ====
section
/-! DEFINITION. The six EVT rows: the pin-sequencer operations, each taken on its own (42_gpio_sequencer.md). Inside a tick
step or a halt the same shared operations are used, with the operands those rules give (log 4). -/

namespace Sys2Proof.Machine

/-- `DEACTIVATE_LINES` (R173). -/
def execEvtDeactivateLines (s : State) : Out := .next (deactivateLines s)

/-- `ACTIVATE_LINE(n)`, `0 <= n < ROWS` (R170). -/
def execEvtActivateLine (n : BitVec 16) (s : State) : Out :=
  inRange (decide (n.toNat < s.cfg.rows)) (.next (activateLine n s))

/-- `SHIFT_OUT_PLANE(bits)`, COLS bits (R171, 30_encoding.md R95). -/
def execEvtShiftOutPlane (bits : Nat) (s : State) : Out :=
  inRange (decide (bits < 2 ^ s.cfg.cols)) (.next (shiftOutPlane bits s))

/-- `WAIT_TICKS(n)`, `1 <= n <= HOLD_MAX` (R172). -/
def execEvtWaitTicks (n : BitVec 32) (s : State) : Out :=
  inRange (decide (1 ≤ n.toNat ∧ n.toNat ≤ s.cfg.holdMax)) (.next (waitTicks n s))

/-- `SWEEP_COMPLETE(s)` changes no pin; it records the moment in TRACE (R174). -/
def execEvtSweepComplete (swapped : Bool) (s : State) : Out := .next (emit (.sweepComplete swapped) s)

/-- `HALTED(code)`, code 2 or 3, changes no pin but `halted`, which follows PHASE; it records the halt in TRACE (R175). -/
def execEvtHalted (code : BitVec 2) (s : State) : Out :=
  inRange (decide (2 ≤ code.toNat)) (.next (emit (.halted code) s))

end Sys2Proof.Machine
end

