-- ==== Sys2Proof/Machine/Dispatch.lean ====
section
/-! DEFINITION. One arm per row of the opcode table, each one direct call of its meaning. -/

namespace Sys2Proof.Machine

/-- Execute one operation. -/
def exec (i : Instr) (s : State) : Host.Outcome State Fault Refusal :=
  match i with
  | .wrCtrl v => Sys2Proof.Machine.execWrCtrl v s
  | .rdCtrl => Sys2Proof.Machine.execRdCtrl s
  | .wrStatus v => Sys2Proof.Machine.execWrStatus v s
  | .rdStatus => Sys2Proof.Machine.execRdStatus s
  | .rdCmd => Sys2Proof.Machine.execRdCmd s
  | .wrCellAddr v => Sys2Proof.Machine.execWrCellAddr v s
  | .rdCellAddr => Sys2Proof.Machine.execRdCellAddr s
  | .wrCellData v => Sys2Proof.Machine.execWrCellData v s
  | .rdCellData => Sys2Proof.Machine.execRdCellData s
  | .wrMissCnt v => Sys2Proof.Machine.execWrMissCnt v s
  | .rdMissCnt => Sys2Proof.Machine.execRdMissCnt s
  | .wrGeom v => Sys2Proof.Machine.execWrGeom v s
  | .rdGeom => Sys2Proof.Machine.execRdGeom s
  | .wrDepth v => Sys2Proof.Machine.execWrDepth v s
  | .rdDepth => Sys2Proof.Machine.execRdDepth s
  | .wrTunit v => Sys2Proof.Machine.execWrTunit v s
  | .rdTunit => Sys2Proof.Machine.execRdTunit s
  | .wrHwLines v => Sys2Proof.Machine.execWrHwLines v s
  | .rdHwLines => Sys2Proof.Machine.execRdHwLines s
  | .wrScanpos v => Sys2Proof.Machine.execWrScanpos v s
  | .rdScanpos => Sys2Proof.Machine.execRdScanpos s
  | .wrHold v => Sys2Proof.Machine.execWrHold v s
  | .rdHold => Sys2Proof.Machine.execRdHold s
  | .wrFaultval v => Sys2Proof.Machine.execWrFaultval v s
  | .rdFaultval => Sys2Proof.Machine.execRdFaultval s
  | .wrRsv13 v => Sys2Proof.Machine.execWrRsv13 v s
  | .rdRsv13 => Sys2Proof.Machine.execRdRsv13 s
  | .wrRsv14 v => Sys2Proof.Machine.execWrRsv14 v s
  | .rdRsv14 => Sys2Proof.Machine.execRdRsv14 s
  | .wrRsv15 v => Sys2Proof.Machine.execWrRsv15 v s
  | .rdRsv15 => Sys2Proof.Machine.execRdRsv15 s
  | .cmdNop => Sys2Proof.Machine.execCmdNop s
  | .cmdStart => Sys2Proof.Machine.execCmdStart s
  | .cmdSwapRequest => Sys2Proof.Machine.execCmdSwapRequest s
  | .cmdReserved v => Sys2Proof.Machine.execCmdReserved v s
  | .evtDeactivateLines => Sys2Proof.Machine.execEvtDeactivateLines s
  | .evtActivateLine n => Sys2Proof.Machine.execEvtActivateLine n s
  | .evtShiftOutPlane bits => Sys2Proof.Machine.execEvtShiftOutPlane bits s
  | .evtWaitTicks n => Sys2Proof.Machine.execEvtWaitTicks n s
  | .evtSweepComplete swapped => Sys2Proof.Machine.execEvtSweepComplete swapped s
  | .evtHalted code => Sys2Proof.Machine.execEvtHalted code s
  | .fsmIdleStay => Sys2Proof.Machine.execFsmIdleStay s
  | .fsmBeginSweep => Sys2Proof.Machine.execFsmBeginSweep s
  | .fsmHold => Sys2Proof.Machine.execFsmHold s
  | .fsmNextPlane => Sys2Proof.Machine.execFsmNextPlane s
  | .fsmLineDone => Sys2Proof.Machine.execFsmLineDone s
  | .fsmNextLine => Sys2Proof.Machine.execFsmNextLine s
  | .fsmLastLine => Sys2Proof.Machine.execFsmLastLine s
  | .fsmSweepEnd => Sys2Proof.Machine.execFsmSweepEnd s
  | .fsmHaltStay => Sys2Proof.Machine.execFsmHaltStay s
  | .fsmFatalIdle => Sys2Proof.Machine.execFsmFatalIdle s
  | .fsmFatalSweep => Sys2Proof.Machine.execFsmFatalSweep s
  | .encPlaneBit k v => Sys2Proof.Machine.execEncPlaneBit k v s
  | .encPlaneRow k y => Sys2Proof.Machine.execEncPlaneRow k y s

end Sys2Proof.Machine
end

