-- ==== Sys2Proof/Machine/Schedule.lean ====
section
/-! DEFINITION. How the events of the schedule arrive: one tick step, one bus step or one reset step each (00_scope.md R13),
and how a single row of the opcode table is placed to run next (log 13). -/

namespace Sys2Proof.Machine

/-- A bus transaction stands on the port's pins while its step is taken (10_state.md R54); a code of another format is on
no pin. -/
def onPort (c : Code) (s : State) : State :=
  if c.fmt = .bus then { s with port := BitVec.ofNat 37 c.val } else s

/-- One scheduled code: the decoded operation runs; a code no row reads is refused. -/
def runCode (c : Code) (s : State) : Out :=
  match decode s.cfg c with
  | .ok i => exec i (onPort c s)
  | .error e => .refused (.undecodable e)

/-- One event: a tick step, a reset step, or the step of a code. -/
def arrive (e : Input) (s : State) : Out :=
  match e with
  | .tick => tick s
  | .reset => .next (resetBlock s)
  | .word c => runCode c s

/-- One step: the first event of the schedule arrives; when none is left the tick input goes on alone (log 3). No model
exists for illegal parameters (93_implementation_defined.md W1). -/
def takeStep (s : State) : Out :=
  if s.cfg.Legal then
    match s.inputs with
    | [] => tick s
    | e :: rest => arrive e { s with inputs := rest }
  else .refused .illegalParameters

/-- A transition is not fetched from a store: the scan position selects it (30_encoding.md R101). To run an FSM row next, its
condition is made to hold; every other row needs nothing (log 13). -/
def readyFor (i : Instr) (s : State) : State :=
  match i with
  | .fsmIdleStay => { s with phase := .idle, run := false }
  | .fsmBeginSweep => { s with phase := .idle, run := true }
  | .fsmHold => { s with phase := .sweepPlane, hold := 2 }
  | .fsmNextPlane => { s with phase := .sweepPlane, hold := 1, plane := 0 }
  | .fsmLineDone => { s with phase := .sweepPlane, hold := 1, plane := BitVec.ofNat 8 (s.cfg.n - 1) }
  | .fsmNextLine => { s with phase := .advanceLine, line := 0 }
  | .fsmLastLine => { s with phase := .advanceLine, line := BitVec.ofNat 16 (s.cfg.rows - 1) }
  | .fsmSweepEnd => { s with phase := .sweepComplete }
  | .fsmHaltStay => { s with phase := .halt }
  | .fsmFatalIdle => { s with phase := .idle, port := busWord true 3 0xFFFFFFFF#32 }
  | .fsmFatalSweep => { s with phase := .sweepPlane, port := busWord true 3 0xFFFFFFFF#32 }
  | _ => s

/-- The state in which the very next step runs the code (log 13). -/
def placeCode (c : Code) (s : State) : State :=
  let r := match decode s.cfg c with
    | .ok i => readyFor i s
    | .error _ => s
  { r with inputs := .word c :: s.inputs }

end Sys2Proof.Machine
end

