-- ==== Sys2Proof/Machine/Step.lean ====
section
/-! DEFINITION. The step function: it only calls Schedule.lean. -/

namespace Sys2Proof.Machine

/-- One atomic step of the block (00_scope.md R13). -/
def step (s : State) : Host.Outcome State Fault Refusal := takeStep s

/-- `s` with the operation whose bits are `w` placed so that the next step runs exactly it (log 12, log 13). -/
def State.withFetchWord (s : State) (nbits w : Nat) : State := placeCode (tableCode s.cfg nbits w) s

end Sys2Proof.Machine
end

