-- ==== Sys2Proof/Machine/Script.lean ====
section
/-! DEFINITION. The host-script notation (30_encoding.md R104) and its pseudo-operations with their exact expansions (R105),
as lists of events for the schedule. EXPECT and `RD r = v` are assertions, not steps. What the notation leaves open is
log 15. -/

namespace Sys2Proof.Machine

/-- `WR <REG>, v`: one write transaction. -/
def wr (a : BitVec 4) (v : Word) : Input := .word (busCode (busWord true a v))

/-- `RD <REG>`: one read transaction. -/
def rd (a : BitVec 4) : Input := .word (busCode (busWord false a 0))

/-- `TICK k`. -/
def tickScript (k : Nat) : List Input := List.replicate k .tick

/-- `RESET`. -/
def resetScript : List Input := [.reset]

/-- `NOP`. -/
def nopScript : List Input := [wr 2 0]

/-- `START`. -/
def startScript : List Input := [wr 2 1]

/-- `SWAPREQ`. -/
def swapReqScript : List Input := [wr 2 2]

/-- `SETLINES n`. -/
def setLines (n : Word) : List Input := [wr 9 n]

/-- `WR <REG>, v` for a value computed as a number. The port has 32-bit data (R90), so a wider value is no bus step
(93_implementation_defined.md W2). DESIGN CHOICE (log 15): such a statement stands in the schedule as a code whose value does
not fit its 37 bits, which `step` refuses as `valueTooWide`; it never wraps to a narrower value. -/
def wrNumber (a : BitVec 4) (v : Nat) : Input :=
  if v < 2 ^ 32 then wr a (BitVec.ofNat 32 v) else .word { fmt := .bus, len := 37, val := 2 ^ 37 + v }

/-- `SEEK x, y`: `WR CELL_ADDR, y * 65536 + x`. R105 gives x and y no range. The sum is taken as the expansion writes it, so
an x of 65536 or more carries into the upper half. DESIGN CHOICE (log 15): a sum of 2^32 or more is refused (`wrNumber`). -/
def seek (x y : Nat) : List Input := [wrNumber 3 (y * 65536 + x)]

/-- `PUT x, y, v`: `SEEK x, y` then `WR CELL_DATA, v`. -/
def putCell (x y : Nat) (v : Word) : List Input := seek x y ++ [wr 4 v]

/-- `GET x, y`: `SEEK x, y` then `RD CELL_DATA`. -/
def getCell (x y : Nat) : List Input := seek x y ++ [rd 4]

/-- `FRAME f`: `PUT x, y, f(x, y)` for all cells, lines outer and columns inner. -/
def frameScript (p : Params) (f : Nat → Nat → Word) : List Input :=
  (List.range p.rows).flatMap fun y => (List.range p.cols).flatMap fun x => putCell x y (f x y)

/-- `FILL v`. -/
def fillScript (p : Params) (v : Word) : List Input := frameScript p fun _ _ => v

/-- `ACK`: clear SWEEP_DONE. -/
def ackSweep : List Input := [wr 1 0x1]

/-- `ACKALL`: clear SWEEP_DONE, WDROP and CMDERR. -/
def ackAll : List Input := [wr 1 0x61]

/-- `IRQON`. -/
def irqOn : List Input := [wr 0 1]

/-- `IRQOFF`. -/
def irqOff : List Input := [wr 0 0]

/-- The schedule is played to its end, one step an event. -/
def play : Nat → State → Out
  | 0, s => .next s
  | k + 1, s => andThen (takeStep s) (play k)

/-- A script run from a state: its events, in order, in place of whatever was scheduled (DESIGN CHOICE, log 15). -/
def runScript (es : List Input) (s : State) : Out := play es.length { s with inputs := es }

/-- `WAITSWEEP`: `TICK 1` until `RD STATUS` has bit 0 set, at most as many times as the first argument says (T_SWEEP + 1
suffice, R105). DEDUCED from "repeat ... until" (log 15): the tick comes before the first read. DESIGN CHOICE (log 15): the
bound, and that where it runs out first the answer is the state reached. -/
def waitSweep : Nat → State → Out
  | 0, s => .next s
  | k + 1, s => andThen (runScript [.tick, rd 1] s) fun t => if t.rdata.getLsbD 0 then .next t else waitSweep k t

end Sys2Proof.Machine
end

