-- ==== Sys2Proof/Safety.lean ====
section
/-! DEFINITION. What claims say about runs: the invariants of 10_state.md R30, which schedules are executions of the
hardware, when a cell is lit (41_scan_fsm.md R159), and the trace a sweep leaves (42_gpio_sequencer.md R178). -/

namespace Sys2Proof.Machine

/-! ## Executions of the hardware -/

/-- An event of R13: a tick, a reset, or one whole 37-bit bus transaction. Codes of other formats are not (log 4). -/
def Input.real : Input → Bool
  | .tick => true
  | .reset => true
  | .word c => decide (c.fmt = .bus) && decide (c.len = 37) && decide (c.val < 2 ^ 37)

/-- Only events of R13 are still to arrive. -/
def realSchedule (s : State) : Bool := s.inputs.all Input.real

/-- The event the next step takes: the first one scheduled, and a tick where none is (log 3). -/
def nextEvent (es : List Input) : Input := es.head?.getD .tick

/-- How many of the next `k` steps are tick steps (41_scan_fsm.md R159 numbers them). -/
def ticksIn : Nat → List Input → Nat
  | 0, _ => 0
  | k + 1, es => (if nextEvent es = .tick then 1 else 0) + ticksIn k es.tail

/-- No reset is among the next `k` events. -/
abbrev noReset (k : Nat) (es : List Input) : Prop := Input.reset ∉ es.take k

/-- The next `k` steps are ticks alone: the host stays silent. -/
abbrev ticksOnly (k : Nat) (es : List Input) : Prop := ∀ e ∈ es.take k, e = Input.tick

/-! ## The invariants of R30 -/

/-- I1: between steps PHASE is IDLE, SWEEP_PLANE or HALT. -/
abbrev settledPhase (s : State) : Prop := s.phase = .idle ∨ s.phase = .sweepPlane ∨ s.phase = .halt

/-- I2: the line and the plane exist. -/
abbrev scanInRange (s : State) : Prop := s.line.toNat < s.cfg.rows ∧ s.plane.toNat < s.cfg.n

/-- I3: while sweeping, RUN is set, the hold is in range and the pins show the plane of the present read side. -/
abbrev sweepingPins (s : State) : Prop :=
  s.phase = .sweepPlane →
    s.run = true ∧ 1 ≤ s.hold.toNat ∧ s.hold.toNat ≤ s.cfg.tUnit * 2 ^ s.plane.toNat ∧
      s.rowEn = onehot s.line.toNat ∧ s.colOut = planeRow s s.line.toNat s.plane.toNat

/-- I4: in IDLE and in HALT nothing is lit and nothing is held. -/
abbrev darkPins (s : State) : Prop :=
  s.phase = .idle ∨ s.phase = .halt → s.hold = 0 ∧ s.rowEn = 0 ∧ s.colOut = 0

/-- I5, with the legal causes of R36: PHASE is HALT exactly when ERR is not 0, ERR is never 1, and RUN is then 0. -/
abbrev haltHasCause (s : State) : Prop :=
  (s.phase = .halt ↔ s.err ≠ 0) ∧ s.err ≠ 1 ∧ (s.phase = .halt → s.run = false)

/-- I6: the pointer names a cell. -/
abbrev pointerInRange (s : State) : Prop := s.cellX.toNat < s.cfg.cols ∧ s.cellY.toNat < s.cfg.rows

/-- I7, with the canonical form: both buffers list only cells of the geometry, with values of N bits. -/
abbrev buffersFit (s : State) : Prop :=
  Frame.wf s.fb0 = true ∧ Frame.wf s.fb1 = true ∧ Frame.fits s.cfg s.fb0 = true ∧ Frame.fits s.cfg s.fb1 = true

/-- The invariant of R30 (I8 speaks of the order of steps, not of one state), for legal parameters and a schedule of
real events. -/
abbrev BlockInv (s : State) : Prop :=
  s.cfg.Legal ∧ realSchedule s = true ∧ settledPhase s ∧ scanInRange s ∧ sweepingPins s ∧ darkPins s ∧
    haltHasCause s ∧ pointerInRange s ∧ buffersFit s

/-! ## What the display shows -/

/-- Cell `(x, y)` is lit: its line is enabled and its column is on (R159). -/
def lit (s : State) (y x : Nat) : Bool := s.rowEn.testBit y && s.colOut.testBit x

/-- In how many tick intervals that end within the next `k` steps the cell is lit. A tick step ends an interval, in which the
pins were what that tick finds, after any transactions before it (R159). -/
def litCount : Nat → State → Nat → Nat → Nat
  | 0, _, _, _ => 0
  | k + 1, s, y, x =>
    (if nextEvent s.inputs = .tick then (lit s y x).toNat else 0) +
      match step s with
      | .next t => litCount k t y x
      | .fault _ => 0
      | .refused _ => 0

/-- A sweep has just begun: line 0, plane 0, its whole hold still to come (R143). -/
abbrev sweepStart (s : State) : Prop :=
  s.phase = .sweepPlane ∧ s.line = 0 ∧ s.plane = 0 ∧ s.hold = holdTicks s.cfg 0

/-- How many ticks the sweep in progress still takes: the rest of the hold, of the planes of the line, and of the lines (R153). -/
def ticksLeft (s : State) : Nat :=
  s.hold.toNat + s.cfg.tUnit * (2 ^ s.cfg.n - 2 ^ (s.plane.toNat + 1)) + (s.cfg.rows - 1 - s.line.toNat) * s.cfg.tLine

/-! ## The trace of a sweep (42_gpio_sequencer.md R178) -/

/-- `Plane(y, i)`. -/
def planeEvents (p : Params) (f : Frame) (y i : Nat) : List Event :=
  [.shiftOutPlane (frameRow p.cols f y i), .waitTicks (holdTicks p i)]

/-- `Line(y)`. -/
def lineEvents (p : Params) (f : Frame) (y : Nat) : List Event :=
  .activateLine (BitVec.ofNat 16 y) :: (List.range p.n).flatMap (planeEvents p f y)

/-- `Sweep`, with the read-side contents in force in it. -/
def sweepEvents (p : Params) (f : Frame) (swapped : Bool) : List Event :=
  (List.range p.rows).flatMap (lineEvents p f) ++ [.sweepComplete swapped]

/-- The duration of a WAIT_TICKS event, 0 for any other event. -/
def Event.wait : Event → Nat
  | .waitTicks n => n.toNat
  | .deactivateLines => 0
  | .activateLine _ => 0
  | .shiftOutPlane _ => 0
  | .sweepComplete _ => 0
  | .halted _ => 0

/-! ## The tick step as a chain of transitions (30_encoding.md R101, 41_scan_fsm.md R150) -/

/-- The FSM rows a tick takes from a state, in order. -/
def tickRows (s : State) : List Instr :=
  match s.phase with
  | .halt => [.fsmHaltStay]
  | .idle => if s.run then [.fsmBeginSweep] else [.fsmIdleStay]
  | .sweepPlane =>
    if 1 < s.hold.toNat then [.fsmHold]
    else if s.plane.toNat < s.cfg.n - 1 then [.fsmNextPlane]
    else if s.line.toNat < s.cfg.rows - 1 then [.fsmLineDone, .fsmNextLine]
    else [.fsmLineDone, .fsmLastLine, .fsmSweepEnd, .fsmBeginSweep]
  | .advanceLine => []
  | .sweepComplete => []

/-- Operations executed one after the other. -/
def execAll : List Instr → State → Out
  | [], s => .next s
  | i :: r, s => andThen (exec i s) (execAll r)

end Sys2Proof.Machine
end

