-- ==== Sys2Proof/Certificates/Slice0/Obligations.lean ====
section
/-! DEFINITION. The statements for the provers, in the order of the spec's files. A statement that gives the whole next state
(`exec i s = .next { s with … }`) says the result and the frame at once: every field not named is unchanged. -/

open Sys2Proof Sys2Proof.Machine

/-! ## Reset, invariants, steps -/

/-- R57, R280: the reset step, from any state, leaves every item at its reset value; the parameters are the build's (R283).
The value of `rdata` is the model's choice (log 5) and is not stated. -/
def Obligations.ResetStepRestoresEveryItem : Prop :=
  ∀ (s : State) (rest : List Input), s.cfg.Legal → s.inputs = .reset :: rest →
    ∃ t : State, step s = .next t ∧ t.phase = .idle ∧ t.line = 0 ∧ t.plane = 0 ∧ t.hold = 0 ∧ t.rowEn = 0 ∧ t.colOut = 0 ∧
      t.rsel = false ∧ (∀ b k, Frame.read (buffer t b) k = 0) ∧ t.run = false ∧ t.sweepDone = false ∧ t.swapReq = false ∧
      t.wdrop = false ∧ t.cmderr = false ∧ t.err = 0 ∧ t.ie = false ∧ t.cellX = 0 ∧ t.cellY = 0 ∧ t.hwLines = 0 ∧
      t.missCnt = 0 ∧ t.faultVal = 0 ∧ t.trace = [] ∧ irq t = false ∧ halted t = false ∧ t.cfg = s.cfg

/-- R30: the invariant holds after reset, for all legal parameters. -/
def Obligations.InvHoldsAfterReset : Prop :=
  (∀ p : Params, p.Legal → BlockInv (State.resetWith p)) ∧ BlockInv State.reset

/-- R30: every step of an execution (tick, bus or reset) keeps the invariants I1 to I7. -/
def Obligations.StepKeepsInvariants : Prop :=
  ∀ s t : State, BlockInv s → step s = .next t → BlockInv t

/-- R156, R190 e: in a state that meets the invariants the block always has a move; it never faults or refuses. -/
def Obligations.InvariantStateAlwaysMoves : Prop :=
  ∀ s : State, BlockInv s → ∃ t : State, step s = .next t

/-- R283, R69: no step writes a parameter, and each step takes exactly one event of the schedule. -/
def Obligations.StepTakesOneEventAndKeepsParameters : Prop :=
  ∀ s t : State, step s = .next t → t.cfg = s.cfg ∧ t.inputs = s.inputs.tail

/-- The step runs the decoded operation: a scheduled code that decodes to `i` is executed as `i`, a bus transaction standing on
the port's pins (R54; log 5). -/
def Obligations.StepRunsDecodedOperation : Prop :=
  ∀ (s : State) (c : Code) (rest : List Input) (i : Instr),
    s.cfg.Legal → s.inputs = .word c :: rest → decode s.cfg c = .ok i →
      step s = exec i { s with inputs := rest, port := if c.fmt = .bus then BitVec.ofNat 37 c.val else s.port }

/-- R13, R142 to R152: a tick event takes one tick step; log 3: with nothing scheduled the tick goes on alone. -/
def Obligations.TickEventTakesTickStep : Prop :=
  (∀ (s : State) (rest : List Input), s.cfg.Legal → s.inputs = .tick :: rest → step s = tick { s with inputs := rest }) ∧
  (∀ s : State, s.cfg.Legal → s.inputs = [] → step s = tick s)

/-- W1, W2: illegal parameters and codes that no row reads are refused, by name. -/
def Obligations.IllegalParametersAndCodesRefused : Prop :=
  (∀ s : State, ¬ s.cfg.Legal → step s = .refused .illegalParameters) ∧
  (∀ (s : State) (c : Code) (rest : List Input) (e : DecodeError),
    s.cfg.Legal → s.inputs = .word c :: rest → decode s.cfg c = .error e → step s = .refused (.undecodable e))

/-! ## Encodings -/

/-- Decoding the encoding of a well-formed operation gives it back, with every operand, for all parameters. -/
def Obligations.DecodeEncodeRoundTrip : Prop :=
  ∀ (p : Params) (i : Instr), i.wf p = true → decode p (encode p i) = .ok i

/-- What the decoder gives is well formed, and encodes to the code it was read from; of a bus read the ignored wdata is
read as 0 (R90). -/
def Obligations.EncodeDecodeIsIdentityUpToIgnoredBits : Prop :=
  ∀ (p : Params) (c : Code) (i : Instr), decode p c = .ok i →
    i.wf p = true ∧
    encode p i = if c.fmt = .bus ∧ c.val < 2 ^ 36 then { c with val := c.val / 2 ^ 32 * 2 ^ 32 } else c

/-- R90, R106: every 37-bit word is the transaction of the table's row it matches, the longer mask first. -/
def Obligations.BusDecodeAgreesWithOpcodeTable : Prop :=
  ∀ t : BusWord, tableMnemonic t = some (mnemonic (decodeBus t))

/-- Words of 95_test_vectors.md and codes of R100, R101, R106 decode to what they stand for (reference configuration). -/
def Obligations.WordsOfTheSpecDecode : Prop :=
  let p := Params.reference
  decode p { fmt := .bus, len := 37, val := 0x10FFFFFFFF } = .ok (.wrCtrl 0xFFFFFFFF) ∧
  decode p { fmt := .bus, len := 37, val := 0x1100000021 } = .ok (.wrStatus 0x21) ∧
  decode p { fmt := .bus, len := 37, val := 0x1300070007 } = .ok (.wrCellAddr 0x00070007) ∧
  decode p { fmt := .bus, len := 37, val := 0x0400000000 } = .ok .rdCellData ∧
  decode p { fmt := .bus, len := 37, val := 0x1200000001 } = .ok .cmdStart ∧
  decode p { fmt := .bus, len := 37, val := 0x1200000101 } = .ok (.cmdReserved 0x101) ∧
  decode p { fmt := .evt, len := 11, val := 0b01011001100 } = .ok (.evtShiftOutPlane 0xCC) ∧
  decode p { fmt := .fsm, len := 7, val := 0b0010011 } = .ok .fsmNextPlane ∧
  decode p { fmt := .enc, len := 21, val := 0b000110000000000001010 } = .ok (.encPlaneBit 3 10)

/-- R100 to R103, R106: unused event tags, codes that name no transition, codes whose length is not that of their format (for an event,
that of its tag's argument) and values too wide for their length are refused, each by name. That an event of another length or a wide
value is refused, and under which name, is the model's form (log 12). -/
def Obligations.ReservedCodesRefused : Prop :=
  (∀ (p : Params) (w arg : Nat), arg < 2 ^ w → decode p (encodeEvt 6 w arg) = .error .unusedTag ∧
    decode p (encodeEvt 7 w arg) = .error .unusedTag) ∧
  (∀ (p : Params) (v : Nat), v < 2 ^ 7 → fsmRows.lookup v = none →
    decode p { fmt := .fsm, len := 7, val := v } = .error .noSuchTransition) ∧
  (∀ (p : Params) (n v : Nat), v < 2 ^ n →
    (n ≠ 37 → decode p { fmt := .bus, len := n, val := v } = .error .badLength) ∧
    (n ≠ 7 → decode p { fmt := .fsm, len := n, val := v } = .error .badLength) ∧
    (n ≠ 21 → decode p { fmt := .enc, len := n, val := v } = .error .badLength) ∧
    (n < 3 → decode p { fmt := .evt, len := n, val := v } = .error .badLength)) ∧
  (∀ (p : Params) (w arg : Nat), arg < 2 ^ w →
    (w ≠ 0 → decode p (encodeEvt 0 w arg) = .error .badLength) ∧ (w ≠ 16 → decode p (encodeEvt 1 w arg) = .error .badLength) ∧
    (w ≠ p.cols → decode p (encodeEvt 2 w arg) = .error .badLength) ∧ (w ≠ 32 → decode p (encodeEvt 3 w arg) = .error .badLength) ∧
    (w ≠ 1 → decode p (encodeEvt 4 w arg) = .error .badLength) ∧ (w ≠ 2 → decode p (encodeEvt 5 w arg) = .error .badLength)) ∧
  (∀ (p : Params) (c : Code), 2 ^ c.len ≤ c.val → decode p c = .error .valueTooWide)

/-! ## The encoder -/

/-- R120, R121, R127: PLANE_BIT gives bit `i` of the value, PLANE_ROW gives for each column the bit of its own cell of the read
side; neither writes any state but the encoder's wires. That the result stands in a field `encOut` is the model's choice (log 5); that
PLANE_BIT takes every 16-bit value, of which it uses the low N bits, is the model's reading (log 7): R120 gives N-bit values only. -/
def Obligations.EncoderRowsSelectBits : Prop :=
  (∀ (i : BitVec 4) (v : BitVec 16) (s : State), i.toNat < s.cfg.n →
    exec (.encPlaneBit i v) s = .next { s with encOut := if v.getLsbD i.toNat then 1 else 0 }) ∧
  (∀ (i : BitVec 4) (y : BitVec 16) (s : State), i.toNat < s.cfg.n → y.toNat < s.cfg.rows →
    ∃ w : Nat, exec (.encPlaneRow i y) s = .next { s with encOut := w } ∧ w < 2 ^ s.cfg.cols ∧
      ∀ x : Nat, x < s.cfg.cols →
        w.testBit x = (Frame.read (if s.rsel then s.fb1 else s.fb0) (cellKey y.toNat x)).getLsbD i.toNat)

/-- R125: a cell value is the weighted sum of its planes, for every depth. -/
def Obligations.BitPlanesReconstructTheValue : Prop :=
  ∀ (n : Nat) (v : Cell), v.toNat < 2 ^ n →
    ((List.range n).map fun i => (planeBit v i).toNat * 2 ^ i).sum = v.toNat

/-- R129: the LUT form equals the multiplexer form. -/
def Obligations.LutFormEqualsMultiplexer : Prop :=
  ∀ (v : Cell) (i : Nat), planeBitLut v i = planeBit v i

/-- R124, R121: a line of zero cells gives the zero vector in every plane, a line of maximum cells the all-ones vector. -/
def Obligations.PlaneRowEdgeCases : Prop :=
  ∀ (p : Params) (f : Frame) (y i : Nat), p.Legal → i < p.n →
    ((∀ x, x < p.cols → Frame.read f (cellKey y x) = 0) → frameRow p.cols f y i = 0) ∧
    ((∀ x, x < p.cols → (Frame.read f (cellKey y x)).toNat = p.vMax) → frameRow p.cols f y i = 2 ^ p.cols - 1)

/-! ## The scan state machine -/

/-- R142, R152: a tick changes nothing in IDLE with RUN = 0 and in HALT. -/
def Obligations.TickWithoutRunOrInHaltChangesNothing : Prop :=
  (∀ s : State, s.phase = .idle → s.run = false → tick s = .next s ∧ exec .fsmIdleStay s = .next s) ∧
  (∀ s : State, s.phase = .halt → tick s = .next s ∧ exec .fsmHaltStay s = .next s)

/-- R143, R144: a sweep begins on line 0, plane 0 of the read side, with its pins, hold and three events. -/
def Obligations.BeginSweepShowsLineZeroPlaneZero : Prop :=
  ∀ s : State, s.cfg.Legal → s.phase = .idle → s.run = true →
    ∃ t : State, exec .fsmBeginSweep s = .next t ∧ tick s = .next t ∧
      t = { s with
        phase := .sweepPlane, line := 0, plane := 0, rowEn := 1
        colOut := frameRow s.cfg.cols (buffer s s.rsel) 0 0
        hold := BitVec.ofNat 32 s.cfg.tUnit
        trace := s.trace ++ [.activateLine 0, .shiftOutPlane (frameRow s.cfg.cols (buffer s s.rsel) 0 0),
          .waitTicks (BitVec.ofNat 32 s.cfg.tUnit)] }

/-- R146: while HOLD > 1 a tick only decrements HOLD. -/
def Obligations.HoldCountsDown : Prop :=
  ∀ s : State, s.phase = .sweepPlane → 1 < s.hold.toNat →
    ∃ h : BitVec 32, h.toNat + 1 = s.hold.toNat ∧ exec .fsmHold s = .next { s with hold := h } ∧
      tick s = .next { s with hold := h }

/-- R147, R145: when a plane that is not the last expires, the next one is loaded and held twice as long as the weight of the
plane before it; the line stays active. -/
def Obligations.ExpiredPlaneGivesNextPlane : Prop :=
  ∀ s : State, s.cfg.Legal → s.phase = .sweepPlane → s.hold.toNat = 1 → s.line.toNat < s.cfg.rows →
    s.plane.toNat + 1 < s.cfg.n →
    ∃ t : State, exec .fsmNextPlane s = .next t ∧ tick s = .next t ∧
      t.plane.toNat = s.plane.toNat + 1 ∧ t.hold.toNat = s.cfg.tUnit * 2 ^ (s.plane.toNat + 1) ∧
      t.colOut = frameRow s.cfg.cols (buffer s s.rsel) s.line.toNat (s.plane.toNat + 1) ∧
      t.trace = s.trace ++ [.shiftOutPlane t.colOut, .waitTicks t.hold] ∧
      t = { s with plane := t.plane, hold := t.hold, colOut := t.colOut, trace := t.trace }

/-- R147, R148: the last plane of a line leads into ADVANCE_LINE, and the last line from there into SWEEP_COMPLETE; nothing
else changes. -/
def Obligations.LastPlaneAndLastLineEnterTransientPhases : Prop :=
  (∀ s : State, s.phase = .sweepPlane → s.hold.toNat = 1 → 1 ≤ s.cfg.n → s.plane.toNat + 1 = s.cfg.n →
    exec .fsmLineDone s = .next { s with phase := .advanceLine }) ∧
  (∀ s : State, s.phase = .advanceLine → s.line.toNat + 1 = s.cfg.rows →
    exec .fsmLastLine s = .next { s with phase := .sweepComplete })

/-- R148, R176: from ADVANCE_LINE a line that is not the last gives way to the next one, at plane 0, in the event order of R176. -/
def Obligations.AdvanceLineActivatesNextLine : Prop :=
  ∀ s : State, s.cfg.Legal → s.phase = .advanceLine → s.line.toNat + 1 < s.cfg.rows →
    ∃ t : State, exec .fsmNextLine s = .next t ∧ t.phase = .sweepPlane ∧ t.line.toNat = s.line.toNat + 1 ∧ t.plane = 0 ∧
      t.rowEn = 2 ^ (s.line.toNat + 1) ∧ t.colOut = frameRow s.cfg.cols (buffer s s.rsel) (s.line.toNat + 1) 0 ∧
      t.hold = BitVec.ofNat 32 s.cfg.tUnit ∧
      t.trace = s.trace ++ [.activateLine t.line, .shiftOutPlane t.colOut, .waitTicks t.hold] ∧
      t = { s with
        phase := t.phase, line := t.line, plane := t.plane, rowEn := t.rowEn, colOut := t.colOut, hold := t.hold
        trace := t.trace }

/-- R149, R241: the end of a sweep sets SWEEP_DONE and either swaps the roles and clears the request, or counts a deadline
miss, saturating. -/
def Obligations.SweepEndSwapsOrCountsMiss : Prop :=
  ∀ s : State, s.phase = .sweepComplete →
    (s.swapReq = true → exec .fsmSweepEnd s = .next { s with
      phase := .idle, sweepDone := true, rsel := !s.rsel, swapReq := false, trace := s.trace ++ [.sweepComplete true] }) ∧
    (s.swapReq = false → ∃ m : Word, m.toNat = min (s.missCnt.toNat + 1) 0xFFFFFFFF ∧
      exec .fsmSweepEnd s = .next { s with
        phase := .idle, sweepDone := true, missCnt := m, trace := s.trace ++ [.sweepComplete false] })

/-- R141, R150: in a state that meets the invariants, the tick step is the chain of transitions its scan position selects. -/
def Obligations.TickIsChainOfTransitions : Prop :=
  ∀ s : State, BlockInv s → tick s = execAll (tickRows s) s

/-- R101: each FSM row leaves and enters the phases its code names, and its bit `ld` says whether a plane is loaded. -/
def Obligations.TransitionCodesNameTheirPhases : Prop :=
  ∀ (p : Params) (i : Instr) (s t : State), (encode p i).fmt = .fsm → exec i s = .next t →
    (encode p i).val / 16 = phaseCode s.phase ∧ (encode p i).val / 2 % 8 = phaseCode t.phase ∧
    ((encode p i).val % 2 = 1 →
      t.colOut = planeRow t t.line.toNat t.plane.toNat ∧ t.hold = holdTicks t.cfg t.plane.toNat ∧
      ∃ es, t.trace = s.trace ++ es ++ [.shiftOutPlane t.colOut, .waitTicks t.hold]) ∧
    ((encode p i).val % 2 = 0 → t.phase ≠ .halt → t.colOut = s.colOut)

/-- R101: an FSM row is a move of the machine exactly where the condition of its row of the table holds: its from-phase, and its RUN,
HOLD, PLANE or LINE, or for a FATAL row a transaction on the port that halts (R240). Elsewhere it stops by name. That it stops, and that
a FATAL row reads the port, is the model's choice (log 6). -/
def Obligations.TransitionOutsideItsPhaseIsNoMove : Prop :=
  (∀ (p : Params) (i : Instr) (s : State), (encode p i).fmt = .fsm → (encode p i).val / 16 ≠ phaseCode s.phase →
    exec i s = .fault .transitionNotEnabled) ∧
  (∀ s : State, s.cfg.Legal →
    let fatal : Prop :=
      (∃ v : Word, s.port = busWord true 3 v ∧ (s.cfg.cols ≤ v.toNat % 2 ^ 16 ∨ s.cfg.rows ≤ v.toNat / 2 ^ 16)) ∨
        (s.port = busWord true 2 1 ∧ s.run = false ∧ s.hwLines.toNat ≠ s.cfg.rows)
    (exec .fsmIdleStay s = .fault .transitionNotEnabled ↔ ¬ (s.phase = .idle ∧ s.run = false)) ∧
    (exec .fsmBeginSweep s = .fault .transitionNotEnabled ↔ ¬ (s.phase = .idle ∧ s.run = true)) ∧
    (exec .fsmHold s = .fault .transitionNotEnabled ↔ ¬ (s.phase = .sweepPlane ∧ 1 < s.hold.toNat)) ∧
    (exec .fsmNextPlane s = .fault .transitionNotEnabled ↔
      ¬ (s.phase = .sweepPlane ∧ s.hold.toNat = 1 ∧ s.plane.toNat + 1 < s.cfg.n)) ∧
    (exec .fsmLineDone s = .fault .transitionNotEnabled ↔
      ¬ (s.phase = .sweepPlane ∧ s.hold.toNat = 1 ∧ s.plane.toNat + 1 = s.cfg.n)) ∧
    (exec .fsmNextLine s = .fault .transitionNotEnabled ↔ ¬ (s.phase = .advanceLine ∧ s.line.toNat + 1 < s.cfg.rows)) ∧
    (exec .fsmLastLine s = .fault .transitionNotEnabled ↔ ¬ (s.phase = .advanceLine ∧ s.line.toNat + 1 = s.cfg.rows)) ∧
    (exec .fsmSweepEnd s = .fault .transitionNotEnabled ↔ ¬ s.phase = .sweepComplete) ∧
    (exec .fsmHaltStay s = .fault .transitionNotEnabled ↔ ¬ s.phase = .halt) ∧
    (exec .fsmFatalIdle s = .fault .transitionNotEnabled ↔ ¬ (s.phase = .idle ∧ fatal)) ∧
    (exec .fsmFatalSweep s = .fault .transitionNotEnabled ↔ ¬ (s.phase = .sweepPlane ∧ fatal)))

/-- R244, R240: the fatal transitions take the halt that the transaction on the port causes, from IDLE and from SWEEP_PLANE. -/
def Obligations.FatalTransitionsHalt : Prop :=
  ∀ (s : State) (code : BitVec 2) (val : Word),
    ((∃ v : Word, s.port = busWord true 3 v ∧ (s.cfg.cols ≤ v.toNat % 2 ^ 16 ∨ s.cfg.rows ≤ v.toNat / 2 ^ 16) ∧
        code = 2 ∧ val = v) ∨
      (s.port = busWord true 2 1 ∧ s.run = false ∧ s.hwLines ≠ BitVec.ofNat 32 s.cfg.rows ∧ code = 3 ∧ val = s.hwLines)) →
    (s.phase = .idle → exec .fsmFatalIdle s = .next (halt code val s) ∧
      exec (decodeBus s.port) s = .next (halt code val s)) ∧
    (s.phase = .sweepPlane → exec .fsmFatalSweep s = .next (halt code val s) ∧
      exec (decodeBus s.port) s = .next (halt code val s))

/-! ## The laws of a sweep -/

/-- R153, R158, R149, R75: in any interleaving of ticks and transactions, with no reset and no halt, a sweep takes exactly T_SWEEP ticks:
after fewer it has not begun anew and shows the same read side, and the last of them ends it, swapping the roles or counting the miss
once. Where no event is scheduled the step is a tick (log 3); if no transaction comes at all, nothing halts and both buffers and a
pending request stay as they are until the end. -/
def Obligations.SweepTakesExactlyItsPeriod : Prop :=
  ∀ (s : State) (k : Nat), BlockInv s → sweepStart s → noReset k s.inputs →
    ∃ t : State, Host.Core.run Sys2Proof.core k s = .next t ∧
      (ticksOnly k s.inputs → t.phase ≠ .halt) ∧
      (t.phase ≠ .halt →
        (0 < ticksIn k s.inputs → ticksIn k s.inputs < s.cfg.tSweep → ¬ sweepStart t) ∧
        (ticksIn k s.inputs = s.cfg.tSweep → sweepStart t) ∧
        (ticksIn k s.inputs < s.cfg.tSweep →
          t.rsel = s.rsel ∧ buffer t t.rsel = buffer s s.rsel ∧ t.missCnt = s.missCnt ∧ (s.swapReq = true → t.swapReq = true) ∧
            (ticksOnly k s.inputs → t.swapReq = s.swapReq ∧ t.fb0 = s.fb0 ∧ t.fb1 = s.fb1)) ∧
        (ticksIn k s.inputs + 1 = s.cfg.tSweep → nextEvent t.inputs = .tick →
          ∃ u : State, step t = .next u ∧ sweepStart u ∧ u.sweepDone = true ∧ u.swapReq = false ∧
            u.rsel = (t.rsel != t.swapReq) ∧ u.missCnt = (if t.swapReq then t.missCnt else missNext t.missCnt) ∧
            u.fb0 = t.fb0 ∧ u.fb1 = t.fb1))

/-- R178, R151, R145: in any interleaving of ticks and transactions, with no reset and no halt, the first `1 + T_SWEEP` ticks after START
leave exactly the trace of one sweep, then the first three events of the next; transactions add nothing. Where no event is scheduled the
step is a tick (log 3). -/
def Obligations.SweepLeavesItsTrace : Prop :=
  ∀ (s : State) (k : Nat), BlockInv s → s.phase = .idle → s.run = true → noReset k s.inputs →
    ticksIn k s.inputs = 1 + s.cfg.tSweep →
    ∃ t : State, Host.Core.run Sys2Proof.core k s = .next t ∧
      (ticksOnly k s.inputs → t.phase ≠ .halt) ∧
      (t.phase ≠ .halt → ∃ swapped : Bool, t.rsel = (s.rsel != swapped) ∧ (s.swapReq = true → swapped = true) ∧
        (ticksOnly k s.inputs → swapped = s.swapReq) ∧
        t.trace = s.trace ++ sweepEvents s.cfg (buffer s s.rsel) swapped ++
          .activateLine 0 :: planeEvents s.cfg (buffer t t.rsel) 0 0)

/-- R153, R178: the waits of a sweep's trace sum to T_SWEEP, and it has `ROWS * (1 + 2N) + 1` events. -/
def Obligations.WaitsOfASweepSumToItsPeriod : Prop :=
  ∀ (p : Params) (f : Frame) (swapped : Bool), p.Legal →
    ((sweepEvents p f swapped).map Event.wait).sum = p.tSweep ∧
    (sweepEvents p f swapped).length = p.rows * (1 + 2 * p.n) + 1

/-- R154, R126: in one sweep, in any interleaving of ticks and transactions with no reset and no halt, each cell is lit exactly `T_UNIT *`
its value on the read side in tick intervals. Where no event is scheduled the step is a tick (log 3). -/
def Obligations.LitTimeIsLinearInTheCellValue : Prop :=
  ∀ (s : State) (k y x : Nat), BlockInv s → sweepStart s → y < s.cfg.rows → x < s.cfg.cols → noReset k s.inputs →
    ticksIn k s.inputs = s.cfg.tSweep →
    ∃ t : State, Host.Core.run Sys2Proof.core k s = .next t ∧
      (ticksOnly k s.inputs → t.phase ≠ .halt) ∧
      (t.phase ≠ .halt → litCount k s y x = s.cfg.tUnit * (Frame.read (buffer s s.rsel) (cellKey y x)).toNat)

/-- R155, R123, R141: what a tick does to the scan position, the pins and the read side depends on nothing the host writes, but on RUN in
IDLE and, at the end of a sweep, on a pending request and then on the buffer it promotes. -/
def Obligations.TickIgnoresWhatTheHostWrites : Prop :=
  ∀ s₁ s₂ t₁ t₂ : State, s₁.cfg = s₂.cfg → s₁.phase = s₂.phase → s₁.line = s₂.line → s₁.plane = s₂.plane →
    s₁.hold = s₂.hold → s₁.rowEn = s₂.rowEn → s₁.colOut = s₂.colOut → s₁.rsel = s₂.rsel →
    buffer s₁ s₁.rsel = buffer s₂ s₂.rsel →
    (s₁.phase = .idle → s₁.run = s₂.run) →
    (s₁.phase = .sweepPlane → s₁.hold.toNat ≤ 1 → s₁.cfg.n ≤ s₁.plane.toNat + 1 → s₁.cfg.rows ≤ s₁.line.toNat + 1 →
      s₁.swapReq = s₂.swapReq ∧ (s₁.swapReq = true → buffer s₁ (!s₁.rsel) = buffer s₂ (!s₂.rsel))) →
    tick s₁ = .next t₁ → tick s₂ = .next t₂ →
      t₁.phase = t₂.phase ∧ t₁.line = t₂.line ∧ t₁.plane = t₂.plane ∧ t₁.hold = t₂.hold ∧ t₁.rowEn = t₂.rowEn ∧
        t₁.colOut = t₂.colOut ∧ t₁.rsel = t₂.rsel ∧ buffer t₁ t₁.rsel = buffer t₂ t₂.rsel

/-- R157, R72, R73: the role tag changes only where the last plane of the last line expires with a request pending; that same step
clears the request, sets SWEEP_DONE and leaves both buffers as they were; a request stays pending until then. -/
def Obligations.RolesChangeOnlyAtSweepEnd : Prop :=
  ∀ s t : State, BlockInv s → s.inputs.head? ≠ some .reset → step s = .next t →
    (t.rsel ≠ s.rsel → s.swapReq = true ∧ s.phase = .sweepPlane ∧ s.hold = 1 ∧ s.plane.toNat + 1 = s.cfg.n ∧
      s.line.toNat + 1 = s.cfg.rows ∧ t.swapReq = false ∧ t.sweepDone = true ∧ t.fb0 = s.fb0 ∧ t.fb1 = s.fb1) ∧
    (s.swapReq = true → t.swapReq = true ∨ t.rsel ≠ s.rsel)

/-- R73: in any interleaving of ticks and transactions, with no reset and no halt, a pending request is served, once, within T_SWEEP ticks
of a sweeping block, and within `1 + T_SWEEP` of a block that is started but still in IDLE. Where no event is scheduled the step is a
tick (log 3). -/
def Obligations.PendingRequestIsServedWithinASweep : Prop :=
  ∀ (s : State) (k bound : Nat), BlockInv s → s.run = true → s.swapReq = true → noReset k s.inputs →
    bound = (if s.phase = .idle then 1 else 0) + s.cfg.tSweep → bound ≤ ticksIn k s.inputs →
    ∃ t : State, Host.Core.run Sys2Proof.core k s = .next t ∧
      (ticksOnly k s.inputs → t.phase ≠ .halt) ∧
      (t.phase ≠ .halt → ∃ (j : Nat) (u v : State), j < k ∧ ticksIn (j + 1) s.inputs ≤ bound ∧
        Host.Core.run Sys2Proof.core j s = .next u ∧ u.swapReq = true ∧ u.rsel = s.rsel ∧
        Host.Core.run Sys2Proof.core (j + 1) s = .next v ∧ sweepStart v ∧ v.swapReq = false ∧ v.sweepDone = true ∧
        v.rsel = !s.rsel ∧ v.missCnt = s.missCnt)

/-- R249, R248: `irq` is a level: in every state it is SWEEP_DONE and IE and not HALT, whatever came before. So a sweep that ends raises
it exactly if IE is set, and a halt lowers it and raises `halted`. -/
def Obligations.InterruptLineIsALevel : Prop :=
  (∀ s : State, irq s = true ↔ s.sweepDone = true ∧ s.ie = true ∧ s.phase ≠ .halt) ∧
  (∀ s : State, s.phase = .sweepComplete → ∃ t : State, exec .fsmSweepEnd s = .next t ∧ irqPending t = true ∧ irq t = s.ie) ∧
  (∀ (s : State) (c : BitVec 2) (v : Word), irq (halt c v s) = false ∧ halted (halt c v s) = true)

/-! ## The pin sequencer -/

/-- R170 to R175: the six pin-sequencer operations, each with its pins and its event and nothing else. -/
def Obligations.PinOperationsSetPinsAndEmit : Prop :=
  ∀ s : State,
    exec .evtDeactivateLines s = .next { s with rowEn := 0, colOut := 0, trace := s.trace ++ [.deactivateLines] } ∧
    (∀ n : BitVec 16, n.toNat < s.cfg.rows →
      exec (.evtActivateLine n) s = .next { s with rowEn := 2 ^ n.toNat, trace := s.trace ++ [.activateLine n] }) ∧
    (∀ bits : Nat, bits < 2 ^ s.cfg.cols →
      exec (.evtShiftOutPlane bits) s = .next { s with colOut := bits, trace := s.trace ++ [.shiftOutPlane bits] }) ∧
    (∀ n : BitVec 32, 1 ≤ n.toNat → n.toNat ≤ s.cfg.holdMax →
      exec (.evtWaitTicks n) s = .next { s with hold := n, trace := s.trace ++ [.waitTicks n] }) ∧
    (∀ b : Bool, exec (.evtSweepComplete b) s = .next { s with trace := s.trace ++ [.sweepComplete b] }) ∧
    (∀ c : BitVec 2, 2 ≤ c.toNat → exec (.evtHalted c) s = .next { s with trace := s.trace ++ [.halted c] })

/-- An EVT or ENC operand outside the range its rule states has no meaning: the model stops by name, and only there (log 7). -/
def Obligations.OperandOutOfRangeIsNoMove : Prop :=
  ∀ (i : Instr) (s : State), (encode s.cfg i).fmt = .evt ∨ (encode s.cfg i).fmt = .enc →
    (exec i s = .fault .operandOutOfRange ↔ i.wf s.cfg = false)

/-! ## The host's reads -/

/-- R66, R190 a: a read of any index, in any phase, changes no state but the read data, and is answered. -/
def Obligations.ReadsHaveNoSideEffect : Prop :=
  ∀ (w : BusWord) (s : State), busWe w = false → pointerInRange s →
    ∃ v : Word, exec (decodeBus w) s = .next { s with rdata := v }

/-- R40, R194: the fields of STATUS. -/
def Obligations.StatusReadShowsTheFlags : Prop :=
  (∀ x : Word, decodeBus (busWord false 1 x) = .rdStatus) ∧ ∀ s : State, ∃ w : Word, exec .rdStatus s = .next { s with rdata := w } ∧
    w.getLsbD 0 = s.sweepDone ∧ w.getLsbD 1 = s.swapReq ∧ w.getLsbD 2 = s.rsel ∧ w.getLsbD 3 = s.run ∧
    w.getLsbD 4 = decide (s.phase = .halt) ∧ w.getLsbD 5 = s.wdrop ∧ w.getLsbD 6 = s.cmderr ∧ w.getLsbD 7 = false ∧
    w.extractLsb' 8 2 = s.err ∧ w.extractLsb' 10 22 = 0

/-- R49, R211, R98: the fields of SCANPOS. -/
def Obligations.ScanposReadShowsThePosition : Prop :=
  (∀ x : Word, decodeBus (busWord false 10 x) = .rdScanpos) ∧ ∀ s : State, ∃ w : Word, exec .rdScanpos s = .next { s with rdata := w } ∧
    w.extractLsb' 0 16 = s.line ∧ w.extractLsb' 16 8 = s.plane ∧ w.extractLsb' 24 3 = BitVec.ofNat 3 (phaseCode s.phase) ∧
    w.extractLsb' 27 5 = 0

/-- R192, R202: CTRL shows IE, CELL_ADDR shows the pointer, line in the upper half. -/
def Obligations.CtrlAndPointerReads : Prop :=
  (∀ x : Word, decodeBus (busWord false 0 x) = .rdCtrl ∧ decodeBus (busWord false 3 x) = .rdCellAddr) ∧
  ∀ s : State, exec .rdCtrl s = .next { s with rdata := if s.ie then 1 else 0 } ∧
    exec .rdCellAddr s = .next { s with rdata := s.cellY ++ s.cellX }

/-- R45 to R47, R206 to R208: the constants show the parameters. -/
def Obligations.ConstantReadsShowTheParameters : Prop :=
  (∀ x : Word, decodeBus (busWord false 6 x) = .rdGeom ∧ decodeBus (busWord false 7 x) = .rdDepth ∧
    decodeBus (busWord false 8 x) = .rdTunit) ∧
  ∀ s : State, s.cfg.Legal →
    (∃ w : Word, exec .rdGeom s = .next { s with rdata := w } ∧ w.toNat % 2 ^ 16 = s.cfg.cols ∧ w.toNat / 2 ^ 16 = s.cfg.rows) ∧
    (∃ w : Word, exec .rdDepth s = .next { s with rdata := w } ∧ w.toNat = s.cfg.n) ∧
    (∃ w : Word, exec .rdTunit s = .next { s with rdata := w } ∧ w.toNat = s.cfg.tUnit)

/-- R200, R205, R210, R212, R213: the plain registers show their state, and CMD shows 0. -/
def Obligations.PlainReadsShowTheirRegister : Prop :=
  (∀ x : Word, decodeBus (busWord false 5 x) = .rdMissCnt ∧ decodeBus (busWord false 9 x) = .rdHwLines ∧
    decodeBus (busWord false 11 x) = .rdHold ∧ decodeBus (busWord false 12 x) = .rdFaultval ∧
    decodeBus (busWord false 2 x) = .rdCmd) ∧
  ∀ s : State,
    exec .rdMissCnt s = .next { s with rdata := s.missCnt } ∧ exec .rdHwLines s = .next { s with rdata := s.hwLines } ∧
    exec .rdHold s = .next { s with rdata := s.hold } ∧ exec .rdFaultval s = .next { s with rdata := s.faultVal } ∧
    exec .rdCmd s = .next { s with rdata := 0 }

/-- R215: the unmapped indices read 0 and take no write. -/
def Obligations.UnmappedIndicesReadZeroAndTakeNoWrite : Prop :=
  (∀ x : Word, decodeBus (busWord false 13 x) = .rdRsv13 ∧ decodeBus (busWord false 14 x) = .rdRsv14 ∧
    decodeBus (busWord false 15 x) = .rdRsv15 ∧ decodeBus (busWord true 13 x) = .wrRsv13 x ∧
    decodeBus (busWord true 14 x) = .wrRsv14 x ∧ decodeBus (busWord true 15 x) = .wrRsv15 x) ∧
  ∀ (v : Word) (s : State),
    exec .rdRsv13 s = .next { s with rdata := 0 } ∧ exec .rdRsv14 s = .next { s with rdata := 0 } ∧
    exec .rdRsv15 s = .next { s with rdata := 0 } ∧ exec (.wrRsv13 v) s = .next s ∧ exec (.wrRsv14 v) s = .next s ∧
    exec (.wrRsv15 v) s = .next s

/-- R204: the load reads the write side at the pointer, zero-extended, in every phase and also while a request is pending. -/
def Obligations.CellDataReadReturnsWriteSideCell : Prop :=
  (∀ x : Word, decodeBus (busWord false 4 x) = .rdCellData) ∧
  ∀ s : State, pointerInRange s →
    ∃ w : Word, exec .rdCellData s = .next { s with rdata := w } ∧
      w.toNat = (Frame.read (if s.rsel then s.fb0 else s.fb1) (s.cellY.toNat * 65536 + s.cellX.toNat)).toNat

/-! ## The host's writes and commands -/

/-- R190 b: in HALT every write, whatever the index and the value, changes nothing at all. -/
def Obligations.HaltIgnoresEveryWrite : Prop :=
  ∀ (w : BusWord) (s : State), busWe w = true → s.phase = .halt → exec (decodeBus w) s = .next s

/-- R191, R249: a CTRL write sets IE from bit 0, and `irq` follows at once. -/
def Obligations.CtrlWriteSetsInterruptEnable : Prop :=
  ∀ (v : Word) (s : State), s.phase ≠ .halt →
    decodeBus (busWord true 0 v) = .wrCtrl v ∧
    ∃ t : State, exec (.wrCtrl v) s = .next t ∧ t = { s with ie := v.getLsbD 0 } ∧ irq t = (s.sweepDone && v.getLsbD 0)

/-- R193, R249: a STATUS write clears exactly the flags whose bit is written 1; acknowledging lowers `irq`. -/
def Obligations.StatusWriteClearsWrittenOnes : Prop :=
  ∀ (v : Word) (s : State), s.phase ≠ .halt →
    decodeBus (busWord true 1 v) = .wrStatus v ∧
    ∃ t : State, exec (.wrStatus v) s = .next t ∧
      t = { s with
        sweepDone := if v.getLsbD 0 then false else s.sweepDone
        wdrop := if v.getLsbD 5 then false else s.wdrop
        cmderr := if v.getLsbD 6 then false else s.cmderr } ∧
      (v.getLsbD 0 = true → irq t = false)

/-- R196, R214: NOP and the writes to read-only registers change nothing, in every phase. -/
def Obligations.IgnoredWritesChangeNothing : Prop :=
  (decodeBus 0x1200000000 = .cmdNop ∧ ∀ x : Word, decodeBus (busWord true 5 x) = .wrMissCnt x ∧
    decodeBus (busWord true 6 x) = .wrGeom x ∧ decodeBus (busWord true 7 x) = .wrDepth x ∧
    decodeBus (busWord true 8 x) = .wrTunit x ∧ decodeBus (busWord true 10 x) = .wrScanpos x ∧
    decodeBus (busWord true 11 x) = .wrHold x ∧ decodeBus (busWord true 12 x) = .wrFaultval x) ∧
  ∀ (v : Word) (s : State),
    exec .cmdNop s = .next s ∧ exec (.wrMissCnt v) s = .next s ∧ exec (.wrGeom v) s = .next s ∧
    exec (.wrDepth v) s = .next s ∧ exec (.wrTunit v) s = .next s ∧ exec (.wrScanpos v) s = .next s ∧
    exec (.wrHold v) s = .next s ∧ exec (.wrFaultval v) s = .next s

/-- R209: HW_LINES takes all 32 bits, with no check. -/
def Obligations.HwLinesWriteStoresTheWord : Prop :=
  ∀ (v : Word) (s : State), s.phase ≠ .halt →
    decodeBus (busWord true 9 v) = .wrHwLines v ∧ exec (.wrHwLines v) s = .next { s with hwLines := v }

/-- R198, R199: SWAP_REQUEST sets SWAP_REQ, a reserved command sets CMDERR; nothing else changes. -/
def Obligations.SwapRequestAndReservedCommand : Prop :=
  ∀ s : State, s.phase ≠ .halt → decodeBus 0x1200000002 = .cmdSwapRequest ∧
    exec .cmdSwapRequest s = .next { s with swapReq := true } ∧
    (∀ v : Word, 2 < v.toNat → exec (decodeBus (busWord true 2 v)) s = .next { s with cmderr := true } ∧
      exec (.cmdReserved v) s = .next { s with cmderr := true })

/-- R197, R243, R244: START does nothing when running, sets RUN when HW_LINES is ROWS, and else halts with cause 3: the pins go
dark, HOLD and RUN are cleared, the cause and the value are saved, everything else is kept. -/
def Obligations.StartChecksTheLineCount : Prop :=
  decodeBus 0x1200000001 = .cmdStart ∧
  (∀ s : State, s.phase = .halt → exec .cmdStart s = .next s) ∧
  ∀ s : State, s.cfg.Legal → s.phase ≠ .halt → exec .cmdStart s = .next
    (if s.run then s
     else if s.hwLines.toNat = s.cfg.rows then { s with run := true }
     else { s with
       err := 3, faultVal := s.hwLines, run := false, rowEn := 0, colOut := 0, hold := 0, phase := .halt
       trace := s.trace ++ [.deactivateLines, .halted 3] })

/-- R201, R242, R244: a coordinate inside the geometry moves the pointer; any other halts with cause 2 and leaves the pointer. -/
def Obligations.CellAddrWriteChecksTheCoordinate : Prop :=
  ∀ (v : Word) (s : State), s.phase ≠ .halt → decodeBus (busWord true 3 v) = .wrCellAddr v ∧ exec (.wrCellAddr v) s = .next
    (if v.toNat % 2 ^ 16 < s.cfg.cols ∧ v.toNat / 2 ^ 16 < s.cfg.rows then
       { s with cellX := BitVec.ofNat 16 v.toNat, cellY := BitVec.ofNat 16 (v.toNat / 2 ^ 16) }
     else { s with
       err := 2, faultVal := v, run := false, rowEn := 0, colOut := 0, hold := 0, phase := .halt
       trace := s.trace ++ [.deactivateLines, .halted 2] })

/-- R203, R94, R62: while a request is pending the store is dropped and WDROP is set; else it puts `v mod 2^N` into the write-side
cell at the pointer, and every other cell of that side, the read side and every other field keep their values. -/
def Obligations.StoreWritesOneWriteSideCellOrIsDropped : Prop :=
  ∀ (v : Word) (s : State), s.phase ≠ .halt →
    decodeBus (busWord true 4 v) = .wrCellData v ∧
    (s.swapReq = true → exec (.wrCellData v) s = .next { s with wdrop := true }) ∧
    (s.cfg.Legal → s.swapReq = false → pointerInRange s → Frame.wf (if s.rsel then s.fb0 else s.fb1) = true →
      ∃ f : Frame, exec (.wrCellData v) s = .next (if s.rsel then { s with fb0 := f } else { s with fb1 := f }) ∧
        (Frame.read f (cellKey s.cellY.toNat s.cellX.toNat)).toNat = v.toNat % 2 ^ s.cfg.n ∧
        ∀ k : Nat, k ≠ cellKey s.cellY.toNat s.cellX.toNat →
          Frame.read f k = Frame.read (if s.rsel then s.fb0 else s.fb1) k)

/-- R203, R204: a load at the same pointer returns what was stored, mod 2^N. -/
def Obligations.LoadReturnsWhatWasStored : Prop :=
  ∀ (v : Word) (s : State), s.cfg.Legal → s.phase ≠ .halt → s.swapReq = false → pointerInRange s →
    Frame.wf (if s.rsel then s.fb0 else s.fb1) = true →
    ∃ t u : State, exec (.wrCellData v) s = .next t ∧ exec .rdCellData t = .next u ∧ u.rdata.toNat = v.toNat % 2 ^ s.cfg.n

/-- A cell access whose pointer names no cell is no move: it faults by name. No run reaches such a pointer (log 8). -/
def Obligations.CellAccessOutsideGeometryFaults : Prop :=
  ∀ (v : Word) (s : State), ¬ pointerInRange s →
    exec .rdCellData s = .fault .cellOutsideGeometry ∧
    (s.phase ≠ .halt → s.swapReq = false → exec (.wrCellData v) s = .fault .cellOutsideGeometry)

/-- R190 d, R62, R245: no transaction changes the scan position, the role tag, the miss counter or the read side, or sets SWEEP_DONE;
the pins, the hold and the phase change only by a halt, with cause 2 or 3. -/
def Obligations.BusStepKeepsTheScanSide : Prop :=
  ∀ (w : BusWord) (s t : State), exec (decodeBus w) s = .next t →
    t.line = s.line ∧ t.plane = s.plane ∧ t.rsel = s.rsel ∧ t.missCnt = s.missCnt ∧
    buffer t s.rsel = buffer s s.rsel ∧ (t.sweepDone = true → s.sweepDone = true) ∧
    ((t.phase = s.phase ∧ t.hold = s.hold ∧ t.rowEn = s.rowEn ∧ t.colOut = s.colOut ∧ t.err = s.err ∧
        t.faultVal = s.faultVal ∧ t.trace = s.trace) ∨
      (s.phase ≠ .halt ∧ t.phase = .halt ∧ t.hold = 0 ∧ t.rowEn = 0 ∧ t.colOut = 0 ∧ t.run = false ∧
        (t.err = 2 ∨ t.err = 3) ∧ t.trace = s.trace ++ [.deactivateLines, .halted t.err]))

/-- R246, R247, R152, R190 b: from HALT nothing but a reset leads anywhere: every other step keeps the whole state but the port's
pins and read data. -/
def Obligations.OnlyResetLeavesHalt : Prop :=
  ∀ s : State, BlockInv s → s.phase = .halt → s.inputs.head? ≠ some .reset →
    ∃ (q : BusWord) (r : Word), step s = .next { s with port := q, rdata := r, inputs := s.inputs.tail }

/-- R153, R155: a sweep in progress has from 1 to T_SWEEP ticks left, T_SWEEP exactly where it has just begun. A tick takes one off
them, or, where it is the last, begins the next sweep; a transaction halts or leaves them, and the picture shown, as they are. Where no
event is scheduled the step is a tick (log 3). -/
def Obligations.EachStepKeepsTheSweepCountdown : Prop :=
  ∀ s : State, BlockInv s → s.phase = .sweepPlane → nextEvent s.inputs ≠ .reset →
    1 ≤ ticksLeft s ∧ ticksLeft s ≤ s.cfg.tSweep ∧ (sweepStart s ↔ ticksLeft s = s.cfg.tSweep) ∧
    ∃ t : State, step s = .next t ∧
      (nextEvent s.inputs = .tick → t.phase = .sweepPlane ∧
        (1 < ticksLeft s → ticksLeft t + 1 = ticksLeft s ∧ t.rsel = s.rsel ∧ t.missCnt = s.missCnt) ∧
        (ticksLeft s = 1 → sweepStart t ∧ t.rsel = (s.rsel != s.swapReq))) ∧
      (nextEvent s.inputs ≠ .tick → t.phase = .halt ∨
        (t.phase = .sweepPlane ∧ ticksLeft t = ticksLeft s ∧ t.rsel = s.rsel ∧ buffer t t.rsel = buffer s s.rsel ∧
          t.rowEn = s.rowEn ∧ t.colOut = s.colOut ∧ t.trace = s.trace))
end

