-- ==== Sys2Proof/Laws/Decode.lean ====
section
/-! SUPPORT. The fields of a bus word, and what each format's decoder reads back from its encoder. -/

namespace Sys2Proof

@[simp] theorem busWe_busWord (we : Bool) (a : BitVec 4) (v : Word) : busWe (busWord we a v) = we := by
  cases we <;> simp only [busWe, busWord, BitVec.getLsbD_append] <;> rfl

@[simp] theorem busIndex_busWord (we : Bool) (a : BitVec 4) (v : Word) : busIndex (busWord we a v) = a := by
  ext i hi
  simp only [busIndex, busWord, BitVec.getElem_extractLsb', BitVec.getLsbD_append]
  have h1 : ¬ (32 + i < 32) := by omega
  simp [hi]

@[simp] theorem busData_busWord (we : Bool) (a : BitVec 4) (v : Word) : busData (busWord we a v) = v := by
  ext i hi
  simp only [busData, busWord, BitVec.getElem_extractLsb', BitVec.getLsbD_append]
  simp [hi]

/-- A transaction is its three fields (30_encoding.md R90). -/
theorem busWord_fields (t : BusWord) : busWord (busWe t) (busIndex t) (busData t) = t := by
  refine BitVec.eq_of_getLsbD_eq fun i hi => ?_
  simp only [busWord, busWe, busIndex, busData, BitVec.getLsbD_append, BitVec.getLsbD_extractLsb']
  by_cases h1 : i < 32
  · simp [h1]
  · by_cases h2 : i < 36
    · have h3 : i - 32 < 4 := by omega
      have h4 : 32 + (i - 32) = i := by omega
      simp [h1, h3, h4]
    · have h3 : i = 36 := by omega
      subst h3
      simp

end Sys2Proof
end

