-- ==== Sys2Proof/Laws/Encoder.lean ====
section
/-! SUPPORT. The small laws of the encoder's vectors: which bit of a packed row is which cell's. -/

namespace Sys2Proof.Machine

@[simp] theorem packBits_nil : packBits [] = 0 := rfl

@[simp] theorem packBits_cons (b : Bool) (r : List Bool) : packBits (b :: r) = b.toNat + 2 * packBits r := rfl

/-- A packed vector fits its width. -/
theorem packBits_lt (l : List Bool) : packBits l < 2 ^ l.length := by
  induction l with
  | nil => simp
  | cons b r ih =>
    cases b <;> simp [Nat.pow_succ] <;> omega

/-- Bit `x` of a packed vector is its entry `x`. -/
theorem packBits_testBit (l : List Bool) (x : Nat) : (packBits l).testBit x = (l[x]?.getD false) := by
  induction l generalizing x with
  | nil => simp
  | cons b r ih =>
    cases x with
    | zero => cases b <;> simp [Nat.testBit_zero]
    | succ x =>
      have h : (b.toNat + 2 * packBits r) / 2 = packBits r := by cases b <;> simp; omega
      simp [Nat.testBit_succ, h, ih]

/-- Lane `x` of a row reads only cell `(x, y)` (40_bitplane_encoder.md R127). -/
theorem frameRow_testBit {cols x : Nat} (f : Frame) (y i : Nat) (hx : x < cols) :
    (frameRow cols f y i).testBit x = planeBit (Frame.read f (cellKey y x)) i := by
  simp [frameRow, packBits_testBit, hx]

theorem frameRow_lt (cols : Nat) (f : Frame) (y i : Nat) : frameRow cols f y i < 2 ^ cols := by
  simpa [frameRow] using packBits_lt ((List.range cols).map fun x => planeBit (Frame.read f (cellKey y x)) i)

theorem onehot_testBit (n y : Nat) : (onehot n).testBit y = decide (n = y) := by
  simp [onehot, Nat.testBit_two_pow]

end Sys2Proof.Machine
end

