-- ==== Sys2Proof/Laws/Memory.lean ====
section
/-! SUPPORT. The laws of one frame buffer: a write is read back, leaves every other cell alone, and keeps the canonical form,
in which equal contents are equal data. -/

namespace Sys2Proof.Machine

theorem Frame.wfAbove_mono {lo hi : Nat} {f : Frame} (h : Frame.wfAbove hi f = true) (hl : lo ≤ hi) :
    Frame.wfAbove lo f = true := by
  cases f with
  | nil => rfl
  | cons e r =>
    obtain ⟨k, v⟩ := e
    simp only [Frame.wfAbove, Bool.and_eq_true, decide_eq_true_eq] at h ⊢
    exact ⟨⟨hl.trans h.1.1, h.1.2⟩, h.2⟩

/-- Below its lowest address a frame reads the unlisted cell. -/
theorem Frame.read_below {lo k : Nat} {f : Frame} (h : Frame.wfAbove lo f = true) (hk : k < lo) :
    Frame.read f k = unlistedCell := by
  induction f generalizing lo with
  | nil => rfl
  | cons e r ih =>
    obtain ⟨j, c⟩ := e
    simp only [Frame.wfAbove, Bool.and_eq_true, decide_eq_true_eq] at h
    have hj : j ≠ k := by omega
    simp only [Frame.read, hj, if_false]
    exact ih h.2 (by omega)

theorem Frame.wfAbove_entry {lo k : Nat} {v : Cell} {r : Frame} (hk : lo ≤ k) (hr : Frame.wfAbove (k + 1) r = true) :
    Frame.wfAbove lo (Frame.entry k v r) = true := by
  unfold Frame.entry
  split
  · exact Frame.wfAbove_mono hr (by omega)
  · simp_all [Frame.wfAbove]

theorem Frame.wfAbove_write {lo k : Nat} {f : Frame} (v : Cell) (h : Frame.wfAbove lo f = true) (hk : lo ≤ k) :
    Frame.wfAbove lo (Frame.write f k v) = true := by
  induction f generalizing lo with
  | nil => exact Frame.wfAbove_entry hk rfl
  | cons e r ih =>
    obtain ⟨j, c⟩ := e
    have h' := h
    simp only [Frame.wfAbove, Bool.and_eq_true, decide_eq_true_eq] at h'
    simp only [Frame.write]
    split
    · unfold Frame.entry
      split
      · exact h
      · rename_i hkj hv
        simp only [Frame.wfAbove, Bool.and_eq_true, decide_eq_true_eq]
        exact ⟨⟨hk, hv⟩, ⟨by omega, h'.1.2⟩, h'.2⟩
    · split
      · rename_i _ hkj
        subst hkj
        exact Frame.wfAbove_entry hk h'.2
      · simp only [Frame.wfAbove, Bool.and_eq_true, decide_eq_true_eq]
        exact ⟨h'.1, ih h'.2 (by omega)⟩

/-- A write keeps the canonical form. -/
theorem Frame.wf_write {f : Frame} (k : Nat) (v : Cell) (h : Frame.wf f = true) : Frame.wf (Frame.write f k v) = true :=
  Frame.wfAbove_write v h (Nat.zero_le k)

theorem Frame.read_entry_same {k : Nat} {v : Cell} {r : Frame} (hr : Frame.wfAbove (k + 1) r = true) :
    Frame.read (Frame.entry k v r) k = v := by
  unfold Frame.entry
  split
  · rename_i hv
    rw [Frame.read_below hr (by omega), hv]
  · simp [Frame.read]

theorem Frame.read_write_same_above {lo : Nat} {f : Frame} (k : Nat) (v : Cell) (h : Frame.wfAbove lo f = true) :
    Frame.read (Frame.write f k v) k = v := by
  induction f generalizing lo with
  | nil => exact Frame.read_entry_same rfl
  | cons e r ih =>
    obtain ⟨j, c⟩ := e
    have h' := h
    simp only [Frame.wfAbove, Bool.and_eq_true, decide_eq_true_eq] at h'
    simp only [Frame.write]
    split
    · rename_i hkj
      refine Frame.read_entry_same ?_
      simp only [Frame.wfAbove, Bool.and_eq_true, decide_eq_true_eq]
      exact ⟨⟨by omega, h'.1.2⟩, h'.2⟩
    · split
      · rename_i _ hkj
        subst hkj
        exact Frame.read_entry_same h'.2
      · have hj : j ≠ k := by omega
        simp only [Frame.read, hj, if_false]
        exact ih h'.2

/-- A cell reads back what was written to it. -/
theorem Frame.read_write_same {f : Frame} (k : Nat) (v : Cell) (h : Frame.wf f = true) :
    Frame.read (Frame.write f k v) k = v :=
  Frame.read_write_same_above k v h

theorem Frame.read_entry_other {k k' : Nat} (v : Cell) (r : Frame) (hk : k ≠ k') :
    Frame.read (Frame.entry k v r) k' = Frame.read r k' := by
  unfold Frame.entry
  split
  · rfl
  · simp [Frame.read, hk]

/-- A write leaves every other cell alone. -/
theorem Frame.read_write_other (f : Frame) {k k' : Nat} (v : Cell) (hk : k ≠ k') :
    Frame.read (Frame.write f k v) k' = Frame.read f k' := by
  induction f with
  | nil => exact Frame.read_entry_other v [] hk
  | cons e r ih =>
    obtain ⟨j, c⟩ := e
    simp only [Frame.write]
    split
    · exact Frame.read_entry_other v _ hk
    · split
      · rename_i _ hkj
        subst hkj
        rw [Frame.read_entry_other v r hk]
        simp [Frame.read, hk]
      · simp only [Frame.read, ih]

/-- In canonical form, frames that read alike are equal. -/
theorem Frame.ext_above {lo : Nat} {f g : Frame} (hf : Frame.wfAbove lo f = true) (hg : Frame.wfAbove lo g = true)
    (h : ∀ k, Frame.read f k = Frame.read g k) : f = g := by
  induction f generalizing lo g with
  | nil =>
    cases g with
    | nil => rfl
    | cons e r =>
      obtain ⟨j, c⟩ := e
      simp only [Frame.wfAbove, Bool.and_eq_true, decide_eq_true_eq] at hg
      have := h j
      simp only [Frame.read, if_true] at this
      exact absurd this.symm hg.1.2
  | cons e r ih =>
    obtain ⟨k, v⟩ := e
    simp only [Frame.wfAbove, Bool.and_eq_true, decide_eq_true_eq] at hf
    cases g with
    | nil =>
      have := h k
      simp only [Frame.read, if_true] at this
      exact absurd this hf.1.2
    | cons e' r' =>
      obtain ⟨j, c⟩ := e'
      simp only [Frame.wfAbove, Bool.and_eq_true, decide_eq_true_eq] at hg
      have hkj : k = j := by
        rcases Nat.lt_trichotomy k j with hlt | heq | hgt
        · have := h k
          simp only [Frame.read, if_true, show ¬ j = k from by omega, if_false] at this
          rw [Frame.read_below hg.2 (by omega)] at this
          exact absurd this hf.1.2
        · exact heq
        · have := h j
          simp only [Frame.read, if_true, show ¬ k = j from by omega, if_false] at this
          rw [Frame.read_below hf.2 (by omega)] at this
          exact absurd this.symm hg.1.2
      subst hkj
      have hv : v = c := by simpa [Frame.read] using h k
      subst hv
      have hr : r = r' := by
        refine ih hf.2 hg.2 fun k' => ?_
        have := h k'
        simp only [Frame.read] at this
        by_cases hk : k = k'
        · subst hk
          rw [Frame.read_below hf.2 (by omega), Frame.read_below hg.2 (by omega)]
        · simpa [hk] using this
      rw [hr]

theorem Frame.fits_entry {p : Params} {k : Nat} {v : Cell} {r : Frame} (hr : Frame.fits p r = true)
    (hy : k / 65536 < p.rows) (hx : k % 65536 < p.cols) (hv : v.toNat < 2 ^ p.n) :
    Frame.fits p (Frame.entry k v r) = true := by
  unfold Frame.entry
  split
  · exact hr
  · simpa [Frame.fits, hy, hx, hv] using hr

/-- A write of an N-bit value to a cell of the geometry keeps the buffer within the geometry. -/
theorem Frame.fits_write {p : Params} {f : Frame} {k : Nat} {v : Cell} (hf : Frame.fits p f = true)
    (hy : k / 65536 < p.rows) (hx : k % 65536 < p.cols) (hv : v.toNat < 2 ^ p.n) :
    Frame.fits p (Frame.write f k v) = true := by
  induction f with
  | nil => exact Frame.fits_entry rfl hy hx hv
  | cons e r ih =>
    obtain ⟨j, c⟩ := e
    have hr : Frame.fits p r = true := by
      simp only [Frame.fits, List.all_cons, Bool.and_eq_true] at hf ⊢
      exact hf.2
    simp only [Frame.write]
    split
    · exact Frame.fits_entry hf hy hx hv
    · split
      · exact Frame.fits_entry hr hy hx hv
      · simp only [Frame.fits, List.all_cons, Bool.and_eq_true] at hf ⊢
        exact ⟨hf.1, ih hr⟩

/-- Every cell of a fitting buffer holds a value of N bits (10_state.md R30 I7). -/
theorem Frame.read_lt_of_fits {p : Params} {f : Frame} (hf : Frame.fits p f = true) (k : Nat) :
    (Frame.read f k).toNat < 2 ^ p.n := by
  induction f with
  | nil => simp [Frame.read, unlistedCell]
  | cons e r ih =>
    obtain ⟨j, c⟩ := e
    simp only [Frame.fits, List.all_cons, Bool.and_eq_true, decide_eq_true_eq] at hf
    simp only [Frame.read]
    split
    · exact hf.1.2
    · exact ih hf.2

/-- The reset contents of both buffers are in canonical form (10_state.md R57). -/
theorem reset_frames_wf (p : Params) :
    Frame.wf (State.resetWith p).fb0 = true ∧ Frame.wf (State.resetWith p).fb1 = true := ⟨rfl, rfl⟩

/-- Distinct cells of the geometry have distinct addresses. -/
theorem cellKey_injective {y x y' x' : Nat} (hx : x < 65536) (hx' : x' < 65536) (h : cellKey y x = cellKey y' x') :
    y = y' ∧ x = x' := by
  unfold cellKey at h
  omega

theorem cellKey_div {y x : Nat} (hx : x < 65536) : cellKey y x / 65536 = y := by
  unfold cellKey
  omega

theorem cellKey_mod {y x : Nat} (hx : x < 65536) : cellKey y x % 65536 = x := by
  unfold cellKey
  omega

end Sys2Proof.Machine
end

