-- ==== Sys2Proof/Laws/State.lean ====
section
/-! SUPPORT. What each shared operation leaves in each field: one lemma per field per operation, so that no later proof
unfolds a record update. -/

namespace Sys2Proof.Machine

/-! ## emit -/

@[simp] theorem emit_phase (e : Event) (s : State) : (emit e s).phase = s.phase := rfl
@[simp] theorem emit_line (e : Event) (s : State) : (emit e s).line = s.line := rfl
@[simp] theorem emit_plane (e : Event) (s : State) : (emit e s).plane = s.plane := rfl
@[simp] theorem emit_hold (e : Event) (s : State) : (emit e s).hold = s.hold := rfl
@[simp] theorem emit_rowEn (e : Event) (s : State) : (emit e s).rowEn = s.rowEn := rfl
@[simp] theorem emit_colOut (e : Event) (s : State) : (emit e s).colOut = s.colOut := rfl
@[simp] theorem emit_rsel (e : Event) (s : State) : (emit e s).rsel = s.rsel := rfl
@[simp] theorem emit_fb0 (e : Event) (s : State) : (emit e s).fb0 = s.fb0 := rfl
@[simp] theorem emit_fb1 (e : Event) (s : State) : (emit e s).fb1 = s.fb1 := rfl
@[simp] theorem emit_run (e : Event) (s : State) : (emit e s).run = s.run := rfl
@[simp] theorem emit_sweepDone (e : Event) (s : State) : (emit e s).sweepDone = s.sweepDone := rfl
@[simp] theorem emit_swapReq (e : Event) (s : State) : (emit e s).swapReq = s.swapReq := rfl
@[simp] theorem emit_wdrop (e : Event) (s : State) : (emit e s).wdrop = s.wdrop := rfl
@[simp] theorem emit_cmderr (e : Event) (s : State) : (emit e s).cmderr = s.cmderr := rfl
@[simp] theorem emit_err (e : Event) (s : State) : (emit e s).err = s.err := rfl
@[simp] theorem emit_ie (e : Event) (s : State) : (emit e s).ie = s.ie := rfl
@[simp] theorem emit_cellX (e : Event) (s : State) : (emit e s).cellX = s.cellX := rfl
@[simp] theorem emit_cellY (e : Event) (s : State) : (emit e s).cellY = s.cellY := rfl
@[simp] theorem emit_hwLines (e : Event) (s : State) : (emit e s).hwLines = s.hwLines := rfl
@[simp] theorem emit_missCnt (e : Event) (s : State) : (emit e s).missCnt = s.missCnt := rfl
@[simp] theorem emit_faultVal (e : Event) (s : State) : (emit e s).faultVal = s.faultVal := rfl
@[simp] theorem emit_trace (e : Event) (s : State) : (emit e s).trace = s.trace ++ [e] := rfl
@[simp] theorem emit_port (e : Event) (s : State) : (emit e s).port = s.port := rfl
@[simp] theorem emit_rdata (e : Event) (s : State) : (emit e s).rdata = s.rdata := rfl
@[simp] theorem emit_cfg (e : Event) (s : State) : (emit e s).cfg = s.cfg := rfl
@[simp] theorem emit_encOut (e : Event) (s : State) : (emit e s).encOut = s.encOut := rfl
@[simp] theorem emit_inputs (e : Event) (s : State) : (emit e s).inputs = s.inputs := rfl

/-! ## activateLine -/

@[simp] theorem activateLine_phase (n : BitVec 16) (s : State) : (activateLine n s).phase = s.phase := rfl
@[simp] theorem activateLine_line (n : BitVec 16) (s : State) : (activateLine n s).line = s.line := rfl
@[simp] theorem activateLine_plane (n : BitVec 16) (s : State) : (activateLine n s).plane = s.plane := rfl
@[simp] theorem activateLine_hold (n : BitVec 16) (s : State) : (activateLine n s).hold = s.hold := rfl
@[simp] theorem activateLine_rowEn (n : BitVec 16) (s : State) : (activateLine n s).rowEn = onehot n.toNat := rfl
@[simp] theorem activateLine_colOut (n : BitVec 16) (s : State) : (activateLine n s).colOut = s.colOut := rfl
@[simp] theorem activateLine_rsel (n : BitVec 16) (s : State) : (activateLine n s).rsel = s.rsel := rfl
@[simp] theorem activateLine_fb0 (n : BitVec 16) (s : State) : (activateLine n s).fb0 = s.fb0 := rfl
@[simp] theorem activateLine_fb1 (n : BitVec 16) (s : State) : (activateLine n s).fb1 = s.fb1 := rfl
@[simp] theorem activateLine_run (n : BitVec 16) (s : State) : (activateLine n s).run = s.run := rfl
@[simp] theorem activateLine_sweepDone (n : BitVec 16) (s : State) : (activateLine n s).sweepDone = s.sweepDone := rfl
@[simp] theorem activateLine_swapReq (n : BitVec 16) (s : State) : (activateLine n s).swapReq = s.swapReq := rfl
@[simp] theorem activateLine_wdrop (n : BitVec 16) (s : State) : (activateLine n s).wdrop = s.wdrop := rfl
@[simp] theorem activateLine_cmderr (n : BitVec 16) (s : State) : (activateLine n s).cmderr = s.cmderr := rfl
@[simp] theorem activateLine_err (n : BitVec 16) (s : State) : (activateLine n s).err = s.err := rfl
@[simp] theorem activateLine_ie (n : BitVec 16) (s : State) : (activateLine n s).ie = s.ie := rfl
@[simp] theorem activateLine_cellX (n : BitVec 16) (s : State) : (activateLine n s).cellX = s.cellX := rfl
@[simp] theorem activateLine_cellY (n : BitVec 16) (s : State) : (activateLine n s).cellY = s.cellY := rfl
@[simp] theorem activateLine_hwLines (n : BitVec 16) (s : State) : (activateLine n s).hwLines = s.hwLines := rfl
@[simp] theorem activateLine_missCnt (n : BitVec 16) (s : State) : (activateLine n s).missCnt = s.missCnt := rfl
@[simp] theorem activateLine_faultVal (n : BitVec 16) (s : State) : (activateLine n s).faultVal = s.faultVal := rfl
@[simp] theorem activateLine_trace (n : BitVec 16) (s : State) : (activateLine n s).trace = s.trace ++ [.activateLine n] := rfl
@[simp] theorem activateLine_port (n : BitVec 16) (s : State) : (activateLine n s).port = s.port := rfl
@[simp] theorem activateLine_rdata (n : BitVec 16) (s : State) : (activateLine n s).rdata = s.rdata := rfl
@[simp] theorem activateLine_cfg (n : BitVec 16) (s : State) : (activateLine n s).cfg = s.cfg := rfl
@[simp] theorem activateLine_encOut (n : BitVec 16) (s : State) : (activateLine n s).encOut = s.encOut := rfl
@[simp] theorem activateLine_inputs (n : BitVec 16) (s : State) : (activateLine n s).inputs = s.inputs := rfl

/-! ## shiftOutPlane -/

@[simp] theorem shiftOutPlane_phase (bits : Nat) (s : State) : (shiftOutPlane bits s).phase = s.phase := rfl
@[simp] theorem shiftOutPlane_line (bits : Nat) (s : State) : (shiftOutPlane bits s).line = s.line := rfl
@[simp] theorem shiftOutPlane_plane (bits : Nat) (s : State) : (shiftOutPlane bits s).plane = s.plane := rfl
@[simp] theorem shiftOutPlane_hold (bits : Nat) (s : State) : (shiftOutPlane bits s).hold = s.hold := rfl
@[simp] theorem shiftOutPlane_rowEn (bits : Nat) (s : State) : (shiftOutPlane bits s).rowEn = s.rowEn := rfl
@[simp] theorem shiftOutPlane_colOut (bits : Nat) (s : State) : (shiftOutPlane bits s).colOut = bits := rfl
@[simp] theorem shiftOutPlane_rsel (bits : Nat) (s : State) : (shiftOutPlane bits s).rsel = s.rsel := rfl
@[simp] theorem shiftOutPlane_fb0 (bits : Nat) (s : State) : (shiftOutPlane bits s).fb0 = s.fb0 := rfl
@[simp] theorem shiftOutPlane_fb1 (bits : Nat) (s : State) : (shiftOutPlane bits s).fb1 = s.fb1 := rfl
@[simp] theorem shiftOutPlane_run (bits : Nat) (s : State) : (shiftOutPlane bits s).run = s.run := rfl
@[simp] theorem shiftOutPlane_sweepDone (bits : Nat) (s : State) : (shiftOutPlane bits s).sweepDone = s.sweepDone := rfl
@[simp] theorem shiftOutPlane_swapReq (bits : Nat) (s : State) : (shiftOutPlane bits s).swapReq = s.swapReq := rfl
@[simp] theorem shiftOutPlane_wdrop (bits : Nat) (s : State) : (shiftOutPlane bits s).wdrop = s.wdrop := rfl
@[simp] theorem shiftOutPlane_cmderr (bits : Nat) (s : State) : (shiftOutPlane bits s).cmderr = s.cmderr := rfl
@[simp] theorem shiftOutPlane_err (bits : Nat) (s : State) : (shiftOutPlane bits s).err = s.err := rfl
@[simp] theorem shiftOutPlane_ie (bits : Nat) (s : State) : (shiftOutPlane bits s).ie = s.ie := rfl
@[simp] theorem shiftOutPlane_cellX (bits : Nat) (s : State) : (shiftOutPlane bits s).cellX = s.cellX := rfl
@[simp] theorem shiftOutPlane_cellY (bits : Nat) (s : State) : (shiftOutPlane bits s).cellY = s.cellY := rfl
@[simp] theorem shiftOutPlane_hwLines (bits : Nat) (s : State) : (shiftOutPlane bits s).hwLines = s.hwLines := rfl
@[simp] theorem shiftOutPlane_missCnt (bits : Nat) (s : State) : (shiftOutPlane bits s).missCnt = s.missCnt := rfl
@[simp] theorem shiftOutPlane_faultVal (bits : Nat) (s : State) : (shiftOutPlane bits s).faultVal = s.faultVal := rfl
@[simp] theorem shiftOutPlane_trace (bits : Nat) (s : State) : (shiftOutPlane bits s).trace = s.trace ++ [.shiftOutPlane bits] := rfl
@[simp] theorem shiftOutPlane_port (bits : Nat) (s : State) : (shiftOutPlane bits s).port = s.port := rfl
@[simp] theorem shiftOutPlane_rdata (bits : Nat) (s : State) : (shiftOutPlane bits s).rdata = s.rdata := rfl
@[simp] theorem shiftOutPlane_cfg (bits : Nat) (s : State) : (shiftOutPlane bits s).cfg = s.cfg := rfl
@[simp] theorem shiftOutPlane_encOut (bits : Nat) (s : State) : (shiftOutPlane bits s).encOut = s.encOut := rfl
@[simp] theorem shiftOutPlane_inputs (bits : Nat) (s : State) : (shiftOutPlane bits s).inputs = s.inputs := rfl

/-! ## waitTicks -/

@[simp] theorem waitTicks_phase (n : BitVec 32) (s : State) : (waitTicks n s).phase = s.phase := rfl
@[simp] theorem waitTicks_line (n : BitVec 32) (s : State) : (waitTicks n s).line = s.line := rfl
@[simp] theorem waitTicks_plane (n : BitVec 32) (s : State) : (waitTicks n s).plane = s.plane := rfl
@[simp] theorem waitTicks_hold (n : BitVec 32) (s : State) : (waitTicks n s).hold = n := rfl
@[simp] theorem waitTicks_rowEn (n : BitVec 32) (s : State) : (waitTicks n s).rowEn = s.rowEn := rfl
@[simp] theorem waitTicks_colOut (n : BitVec 32) (s : State) : (waitTicks n s).colOut = s.colOut := rfl
@[simp] theorem waitTicks_rsel (n : BitVec 32) (s : State) : (waitTicks n s).rsel = s.rsel := rfl
@[simp] theorem waitTicks_fb0 (n : BitVec 32) (s : State) : (waitTicks n s).fb0 = s.fb0 := rfl
@[simp] theorem waitTicks_fb1 (n : BitVec 32) (s : State) : (waitTicks n s).fb1 = s.fb1 := rfl
@[simp] theorem waitTicks_run (n : BitVec 32) (s : State) : (waitTicks n s).run = s.run := rfl
@[simp] theorem waitTicks_sweepDone (n : BitVec 32) (s : State) : (waitTicks n s).sweepDone = s.sweepDone := rfl
@[simp] theorem waitTicks_swapReq (n : BitVec 32) (s : State) : (waitTicks n s).swapReq = s.swapReq := rfl
@[simp] theorem waitTicks_wdrop (n : BitVec 32) (s : State) : (waitTicks n s).wdrop = s.wdrop := rfl
@[simp] theorem waitTicks_cmderr (n : BitVec 32) (s : State) : (waitTicks n s).cmderr = s.cmderr := rfl
@[simp] theorem waitTicks_err (n : BitVec 32) (s : State) : (waitTicks n s).err = s.err := rfl
@[simp] theorem waitTicks_ie (n : BitVec 32) (s : State) : (waitTicks n s).ie = s.ie := rfl
@[simp] theorem waitTicks_cellX (n : BitVec 32) (s : State) : (waitTicks n s).cellX = s.cellX := rfl
@[simp] theorem waitTicks_cellY (n : BitVec 32) (s : State) : (waitTicks n s).cellY = s.cellY := rfl
@[simp] theorem waitTicks_hwLines (n : BitVec 32) (s : State) : (waitTicks n s).hwLines = s.hwLines := rfl
@[simp] theorem waitTicks_missCnt (n : BitVec 32) (s : State) : (waitTicks n s).missCnt = s.missCnt := rfl
@[simp] theorem waitTicks_faultVal (n : BitVec 32) (s : State) : (waitTicks n s).faultVal = s.faultVal := rfl
@[simp] theorem waitTicks_trace (n : BitVec 32) (s : State) : (waitTicks n s).trace = s.trace ++ [.waitTicks n] := rfl
@[simp] theorem waitTicks_port (n : BitVec 32) (s : State) : (waitTicks n s).port = s.port := rfl
@[simp] theorem waitTicks_rdata (n : BitVec 32) (s : State) : (waitTicks n s).rdata = s.rdata := rfl
@[simp] theorem waitTicks_cfg (n : BitVec 32) (s : State) : (waitTicks n s).cfg = s.cfg := rfl
@[simp] theorem waitTicks_encOut (n : BitVec 32) (s : State) : (waitTicks n s).encOut = s.encOut := rfl
@[simp] theorem waitTicks_inputs (n : BitVec 32) (s : State) : (waitTicks n s).inputs = s.inputs := rfl

/-! ## deactivateLines -/

@[simp] theorem deactivateLines_phase (s : State) : (deactivateLines s).phase = s.phase := rfl
@[simp] theorem deactivateLines_line (s : State) : (deactivateLines s).line = s.line := rfl
@[simp] theorem deactivateLines_plane (s : State) : (deactivateLines s).plane = s.plane := rfl
@[simp] theorem deactivateLines_hold (s : State) : (deactivateLines s).hold = s.hold := rfl
@[simp] theorem deactivateLines_rowEn (s : State) : (deactivateLines s).rowEn = 0 := rfl
@[simp] theorem deactivateLines_colOut (s : State) : (deactivateLines s).colOut = 0 := rfl
@[simp] theorem deactivateLines_rsel (s : State) : (deactivateLines s).rsel = s.rsel := rfl
@[simp] theorem deactivateLines_fb0 (s : State) : (deactivateLines s).fb0 = s.fb0 := rfl
@[simp] theorem deactivateLines_fb1 (s : State) : (deactivateLines s).fb1 = s.fb1 := rfl
@[simp] theorem deactivateLines_run (s : State) : (deactivateLines s).run = s.run := rfl
@[simp] theorem deactivateLines_sweepDone (s : State) : (deactivateLines s).sweepDone = s.sweepDone := rfl
@[simp] theorem deactivateLines_swapReq (s : State) : (deactivateLines s).swapReq = s.swapReq := rfl
@[simp] theorem deactivateLines_wdrop (s : State) : (deactivateLines s).wdrop = s.wdrop := rfl
@[simp] theorem deactivateLines_cmderr (s : State) : (deactivateLines s).cmderr = s.cmderr := rfl
@[simp] theorem deactivateLines_err (s : State) : (deactivateLines s).err = s.err := rfl
@[simp] theorem deactivateLines_ie (s : State) : (deactivateLines s).ie = s.ie := rfl
@[simp] theorem deactivateLines_cellX (s : State) : (deactivateLines s).cellX = s.cellX := rfl
@[simp] theorem deactivateLines_cellY (s : State) : (deactivateLines s).cellY = s.cellY := rfl
@[simp] theorem deactivateLines_hwLines (s : State) : (deactivateLines s).hwLines = s.hwLines := rfl
@[simp] theorem deactivateLines_missCnt (s : State) : (deactivateLines s).missCnt = s.missCnt := rfl
@[simp] theorem deactivateLines_faultVal (s : State) : (deactivateLines s).faultVal = s.faultVal := rfl
@[simp] theorem deactivateLines_trace (s : State) : (deactivateLines s).trace = s.trace ++ [.deactivateLines] := rfl
@[simp] theorem deactivateLines_port (s : State) : (deactivateLines s).port = s.port := rfl
@[simp] theorem deactivateLines_rdata (s : State) : (deactivateLines s).rdata = s.rdata := rfl
@[simp] theorem deactivateLines_cfg (s : State) : (deactivateLines s).cfg = s.cfg := rfl
@[simp] theorem deactivateLines_encOut (s : State) : (deactivateLines s).encOut = s.encOut := rfl
@[simp] theorem deactivateLines_inputs (s : State) : (deactivateLines s).inputs = s.inputs := rfl

/-! ## halt -/

@[simp] theorem halt_phase (code : BitVec 2) (val : Word) (s : State) : (halt code val s).phase = .halt := rfl
@[simp] theorem halt_line (code : BitVec 2) (val : Word) (s : State) : (halt code val s).line = s.line := rfl
@[simp] theorem halt_plane (code : BitVec 2) (val : Word) (s : State) : (halt code val s).plane = s.plane := rfl
@[simp] theorem halt_hold (code : BitVec 2) (val : Word) (s : State) : (halt code val s).hold = 0 := rfl
@[simp] theorem halt_rowEn (code : BitVec 2) (val : Word) (s : State) : (halt code val s).rowEn = 0 := rfl
@[simp] theorem halt_colOut (code : BitVec 2) (val : Word) (s : State) : (halt code val s).colOut = 0 := rfl
@[simp] theorem halt_rsel (code : BitVec 2) (val : Word) (s : State) : (halt code val s).rsel = s.rsel := rfl
@[simp] theorem halt_fb0 (code : BitVec 2) (val : Word) (s : State) : (halt code val s).fb0 = s.fb0 := rfl
@[simp] theorem halt_fb1 (code : BitVec 2) (val : Word) (s : State) : (halt code val s).fb1 = s.fb1 := rfl
@[simp] theorem halt_run (code : BitVec 2) (val : Word) (s : State) : (halt code val s).run = false := rfl
@[simp] theorem halt_sweepDone (code : BitVec 2) (val : Word) (s : State) : (halt code val s).sweepDone = s.sweepDone := rfl
@[simp] theorem halt_swapReq (code : BitVec 2) (val : Word) (s : State) : (halt code val s).swapReq = s.swapReq := rfl
@[simp] theorem halt_wdrop (code : BitVec 2) (val : Word) (s : State) : (halt code val s).wdrop = s.wdrop := rfl
@[simp] theorem halt_cmderr (code : BitVec 2) (val : Word) (s : State) : (halt code val s).cmderr = s.cmderr := rfl
@[simp] theorem halt_err (code : BitVec 2) (val : Word) (s : State) : (halt code val s).err = code := rfl
@[simp] theorem halt_ie (code : BitVec 2) (val : Word) (s : State) : (halt code val s).ie = s.ie := rfl
@[simp] theorem halt_cellX (code : BitVec 2) (val : Word) (s : State) : (halt code val s).cellX = s.cellX := rfl
@[simp] theorem halt_cellY (code : BitVec 2) (val : Word) (s : State) : (halt code val s).cellY = s.cellY := rfl
@[simp] theorem halt_hwLines (code : BitVec 2) (val : Word) (s : State) : (halt code val s).hwLines = s.hwLines := rfl
@[simp] theorem halt_missCnt (code : BitVec 2) (val : Word) (s : State) : (halt code val s).missCnt = s.missCnt := rfl
@[simp] theorem halt_faultVal (code : BitVec 2) (val : Word) (s : State) : (halt code val s).faultVal = val := rfl
@[simp] theorem halt_trace (code : BitVec 2) (val : Word) (s : State) : (halt code val s).trace = s.trace ++ [.deactivateLines] ++ [.halted code] := rfl
@[simp] theorem halt_port (code : BitVec 2) (val : Word) (s : State) : (halt code val s).port = s.port := rfl
@[simp] theorem halt_rdata (code : BitVec 2) (val : Word) (s : State) : (halt code val s).rdata = s.rdata := rfl
@[simp] theorem halt_cfg (code : BitVec 2) (val : Word) (s : State) : (halt code val s).cfg = s.cfg := rfl
@[simp] theorem halt_encOut (code : BitVec 2) (val : Word) (s : State) : (halt code val s).encOut = s.encOut := rfl
@[simp] theorem halt_inputs (code : BitVec 2) (val : Word) (s : State) : (halt code val s).inputs = s.inputs := rfl

/-! ## holdDown -/

@[simp] theorem holdDown_phase (s : State) : (holdDown s).phase = s.phase := rfl
@[simp] theorem holdDown_line (s : State) : (holdDown s).line = s.line := rfl
@[simp] theorem holdDown_plane (s : State) : (holdDown s).plane = s.plane := rfl
@[simp] theorem holdDown_hold (s : State) : (holdDown s).hold = s.hold - 1 := rfl
@[simp] theorem holdDown_rowEn (s : State) : (holdDown s).rowEn = s.rowEn := rfl
@[simp] theorem holdDown_colOut (s : State) : (holdDown s).colOut = s.colOut := rfl
@[simp] theorem holdDown_rsel (s : State) : (holdDown s).rsel = s.rsel := rfl
@[simp] theorem holdDown_fb0 (s : State) : (holdDown s).fb0 = s.fb0 := rfl
@[simp] theorem holdDown_fb1 (s : State) : (holdDown s).fb1 = s.fb1 := rfl
@[simp] theorem holdDown_run (s : State) : (holdDown s).run = s.run := rfl
@[simp] theorem holdDown_sweepDone (s : State) : (holdDown s).sweepDone = s.sweepDone := rfl
@[simp] theorem holdDown_swapReq (s : State) : (holdDown s).swapReq = s.swapReq := rfl
@[simp] theorem holdDown_wdrop (s : State) : (holdDown s).wdrop = s.wdrop := rfl
@[simp] theorem holdDown_cmderr (s : State) : (holdDown s).cmderr = s.cmderr := rfl
@[simp] theorem holdDown_err (s : State) : (holdDown s).err = s.err := rfl
@[simp] theorem holdDown_ie (s : State) : (holdDown s).ie = s.ie := rfl
@[simp] theorem holdDown_cellX (s : State) : (holdDown s).cellX = s.cellX := rfl
@[simp] theorem holdDown_cellY (s : State) : (holdDown s).cellY = s.cellY := rfl
@[simp] theorem holdDown_hwLines (s : State) : (holdDown s).hwLines = s.hwLines := rfl
@[simp] theorem holdDown_missCnt (s : State) : (holdDown s).missCnt = s.missCnt := rfl
@[simp] theorem holdDown_faultVal (s : State) : (holdDown s).faultVal = s.faultVal := rfl
@[simp] theorem holdDown_trace (s : State) : (holdDown s).trace = s.trace := rfl
@[simp] theorem holdDown_port (s : State) : (holdDown s).port = s.port := rfl
@[simp] theorem holdDown_rdata (s : State) : (holdDown s).rdata = s.rdata := rfl
@[simp] theorem holdDown_cfg (s : State) : (holdDown s).cfg = s.cfg := rfl
@[simp] theorem holdDown_encOut (s : State) : (holdDown s).encOut = s.encOut := rfl
@[simp] theorem holdDown_inputs (s : State) : (holdDown s).inputs = s.inputs := rfl

/-! ## clearFlags -/

@[simp] theorem clearFlags_phase (v : Word) (s : State) : (clearFlags v s).phase = s.phase := rfl
@[simp] theorem clearFlags_line (v : Word) (s : State) : (clearFlags v s).line = s.line := rfl
@[simp] theorem clearFlags_plane (v : Word) (s : State) : (clearFlags v s).plane = s.plane := rfl
@[simp] theorem clearFlags_hold (v : Word) (s : State) : (clearFlags v s).hold = s.hold := rfl
@[simp] theorem clearFlags_rowEn (v : Word) (s : State) : (clearFlags v s).rowEn = s.rowEn := rfl
@[simp] theorem clearFlags_colOut (v : Word) (s : State) : (clearFlags v s).colOut = s.colOut := rfl
@[simp] theorem clearFlags_rsel (v : Word) (s : State) : (clearFlags v s).rsel = s.rsel := rfl
@[simp] theorem clearFlags_fb0 (v : Word) (s : State) : (clearFlags v s).fb0 = s.fb0 := rfl
@[simp] theorem clearFlags_fb1 (v : Word) (s : State) : (clearFlags v s).fb1 = s.fb1 := rfl
@[simp] theorem clearFlags_run (v : Word) (s : State) : (clearFlags v s).run = s.run := rfl
@[simp] theorem clearFlags_sweepDone (v : Word) (s : State) : (clearFlags v s).sweepDone = (s.sweepDone && !v.getLsbD 0) := rfl
@[simp] theorem clearFlags_swapReq (v : Word) (s : State) : (clearFlags v s).swapReq = s.swapReq := rfl
@[simp] theorem clearFlags_wdrop (v : Word) (s : State) : (clearFlags v s).wdrop = (s.wdrop && !v.getLsbD 5) := rfl
@[simp] theorem clearFlags_cmderr (v : Word) (s : State) : (clearFlags v s).cmderr = (s.cmderr && !v.getLsbD 6) := rfl
@[simp] theorem clearFlags_err (v : Word) (s : State) : (clearFlags v s).err = s.err := rfl
@[simp] theorem clearFlags_ie (v : Word) (s : State) : (clearFlags v s).ie = s.ie := rfl
@[simp] theorem clearFlags_cellX (v : Word) (s : State) : (clearFlags v s).cellX = s.cellX := rfl
@[simp] theorem clearFlags_cellY (v : Word) (s : State) : (clearFlags v s).cellY = s.cellY := rfl
@[simp] theorem clearFlags_hwLines (v : Word) (s : State) : (clearFlags v s).hwLines = s.hwLines := rfl
@[simp] theorem clearFlags_missCnt (v : Word) (s : State) : (clearFlags v s).missCnt = s.missCnt := rfl
@[simp] theorem clearFlags_faultVal (v : Word) (s : State) : (clearFlags v s).faultVal = s.faultVal := rfl
@[simp] theorem clearFlags_trace (v : Word) (s : State) : (clearFlags v s).trace = s.trace := rfl
@[simp] theorem clearFlags_port (v : Word) (s : State) : (clearFlags v s).port = s.port := rfl
@[simp] theorem clearFlags_rdata (v : Word) (s : State) : (clearFlags v s).rdata = s.rdata := rfl
@[simp] theorem clearFlags_cfg (v : Word) (s : State) : (clearFlags v s).cfg = s.cfg := rfl
@[simp] theorem clearFlags_encOut (v : Word) (s : State) : (clearFlags v s).encOut = s.encOut := rfl
@[simp] theorem clearFlags_inputs (v : Word) (s : State) : (clearFlags v s).inputs = s.inputs := rfl

/-! ## loadPlaneAt -/

@[simp] theorem loadPlaneAt_phase (s : State) : (loadPlaneAt s).phase = s.phase := rfl
@[simp] theorem loadPlaneAt_line (s : State) : (loadPlaneAt s).line = s.line := rfl
@[simp] theorem loadPlaneAt_plane (s : State) : (loadPlaneAt s).plane = s.plane := rfl
@[simp] theorem loadPlaneAt_hold (s : State) : (loadPlaneAt s).hold = holdTicks s.cfg s.plane.toNat := rfl
@[simp] theorem loadPlaneAt_rowEn (s : State) : (loadPlaneAt s).rowEn = s.rowEn := rfl
@[simp] theorem loadPlaneAt_colOut (s : State) : (loadPlaneAt s).colOut = planeRow s s.line.toNat s.plane.toNat := rfl
@[simp] theorem loadPlaneAt_rsel (s : State) : (loadPlaneAt s).rsel = s.rsel := rfl
@[simp] theorem loadPlaneAt_fb0 (s : State) : (loadPlaneAt s).fb0 = s.fb0 := rfl
@[simp] theorem loadPlaneAt_fb1 (s : State) : (loadPlaneAt s).fb1 = s.fb1 := rfl
@[simp] theorem loadPlaneAt_run (s : State) : (loadPlaneAt s).run = s.run := rfl
@[simp] theorem loadPlaneAt_sweepDone (s : State) : (loadPlaneAt s).sweepDone = s.sweepDone := rfl
@[simp] theorem loadPlaneAt_swapReq (s : State) : (loadPlaneAt s).swapReq = s.swapReq := rfl
@[simp] theorem loadPlaneAt_wdrop (s : State) : (loadPlaneAt s).wdrop = s.wdrop := rfl
@[simp] theorem loadPlaneAt_cmderr (s : State) : (loadPlaneAt s).cmderr = s.cmderr := rfl
@[simp] theorem loadPlaneAt_err (s : State) : (loadPlaneAt s).err = s.err := rfl
@[simp] theorem loadPlaneAt_ie (s : State) : (loadPlaneAt s).ie = s.ie := rfl
@[simp] theorem loadPlaneAt_cellX (s : State) : (loadPlaneAt s).cellX = s.cellX := rfl
@[simp] theorem loadPlaneAt_cellY (s : State) : (loadPlaneAt s).cellY = s.cellY := rfl
@[simp] theorem loadPlaneAt_hwLines (s : State) : (loadPlaneAt s).hwLines = s.hwLines := rfl
@[simp] theorem loadPlaneAt_missCnt (s : State) : (loadPlaneAt s).missCnt = s.missCnt := rfl
@[simp] theorem loadPlaneAt_faultVal (s : State) : (loadPlaneAt s).faultVal = s.faultVal := rfl
@[simp] theorem loadPlaneAt_trace (s : State) : (loadPlaneAt s).trace = s.trace ++ [.shiftOutPlane (planeRow s s.line.toNat s.plane.toNat)] ++ [.waitTicks (holdTicks s.cfg s.plane.toNat)] := rfl
@[simp] theorem loadPlaneAt_port (s : State) : (loadPlaneAt s).port = s.port := rfl
@[simp] theorem loadPlaneAt_rdata (s : State) : (loadPlaneAt s).rdata = s.rdata := rfl
@[simp] theorem loadPlaneAt_cfg (s : State) : (loadPlaneAt s).cfg = s.cfg := rfl
@[simp] theorem loadPlaneAt_encOut (s : State) : (loadPlaneAt s).encOut = s.encOut := rfl
@[simp] theorem loadPlaneAt_inputs (s : State) : (loadPlaneAt s).inputs = s.inputs := rfl

/-! ## setBuffer -/

@[simp] theorem setBuffer_phase (b : Bool) (f : Frame) (s : State) : (setBuffer b f s).phase = s.phase := by cases b <;> rfl
@[simp] theorem setBuffer_line (b : Bool) (f : Frame) (s : State) : (setBuffer b f s).line = s.line := by cases b <;> rfl
@[simp] theorem setBuffer_plane (b : Bool) (f : Frame) (s : State) : (setBuffer b f s).plane = s.plane := by cases b <;> rfl
@[simp] theorem setBuffer_hold (b : Bool) (f : Frame) (s : State) : (setBuffer b f s).hold = s.hold := by cases b <;> rfl
@[simp] theorem setBuffer_rowEn (b : Bool) (f : Frame) (s : State) : (setBuffer b f s).rowEn = s.rowEn := by cases b <;> rfl
@[simp] theorem setBuffer_colOut (b : Bool) (f : Frame) (s : State) : (setBuffer b f s).colOut = s.colOut := by cases b <;> rfl
@[simp] theorem setBuffer_rsel (b : Bool) (f : Frame) (s : State) : (setBuffer b f s).rsel = s.rsel := by cases b <;> rfl
@[simp] theorem setBuffer_fb0 (b : Bool) (f : Frame) (s : State) : (setBuffer b f s).fb0 = (if b then s.fb0 else f) := by cases b <;> rfl
@[simp] theorem setBuffer_fb1 (b : Bool) (f : Frame) (s : State) : (setBuffer b f s).fb1 = (if b then f else s.fb1) := by cases b <;> rfl
@[simp] theorem setBuffer_run (b : Bool) (f : Frame) (s : State) : (setBuffer b f s).run = s.run := by cases b <;> rfl
@[simp] theorem setBuffer_sweepDone (b : Bool) (f : Frame) (s : State) : (setBuffer b f s).sweepDone = s.sweepDone := by cases b <;> rfl
@[simp] theorem setBuffer_swapReq (b : Bool) (f : Frame) (s : State) : (setBuffer b f s).swapReq = s.swapReq := by cases b <;> rfl
@[simp] theorem setBuffer_wdrop (b : Bool) (f : Frame) (s : State) : (setBuffer b f s).wdrop = s.wdrop := by cases b <;> rfl
@[simp] theorem setBuffer_cmderr (b : Bool) (f : Frame) (s : State) : (setBuffer b f s).cmderr = s.cmderr := by cases b <;> rfl
@[simp] theorem setBuffer_err (b : Bool) (f : Frame) (s : State) : (setBuffer b f s).err = s.err := by cases b <;> rfl
@[simp] theorem setBuffer_ie (b : Bool) (f : Frame) (s : State) : (setBuffer b f s).ie = s.ie := by cases b <;> rfl
@[simp] theorem setBuffer_cellX (b : Bool) (f : Frame) (s : State) : (setBuffer b f s).cellX = s.cellX := by cases b <;> rfl
@[simp] theorem setBuffer_cellY (b : Bool) (f : Frame) (s : State) : (setBuffer b f s).cellY = s.cellY := by cases b <;> rfl
@[simp] theorem setBuffer_hwLines (b : Bool) (f : Frame) (s : State) : (setBuffer b f s).hwLines = s.hwLines := by cases b <;> rfl
@[simp] theorem setBuffer_missCnt (b : Bool) (f : Frame) (s : State) : (setBuffer b f s).missCnt = s.missCnt := by cases b <;> rfl
@[simp] theorem setBuffer_faultVal (b : Bool) (f : Frame) (s : State) : (setBuffer b f s).faultVal = s.faultVal := by cases b <;> rfl
@[simp] theorem setBuffer_trace (b : Bool) (f : Frame) (s : State) : (setBuffer b f s).trace = s.trace := by cases b <;> rfl
@[simp] theorem setBuffer_port (b : Bool) (f : Frame) (s : State) : (setBuffer b f s).port = s.port := by cases b <;> rfl
@[simp] theorem setBuffer_rdata (b : Bool) (f : Frame) (s : State) : (setBuffer b f s).rdata = s.rdata := by cases b <;> rfl
@[simp] theorem setBuffer_cfg (b : Bool) (f : Frame) (s : State) : (setBuffer b f s).cfg = s.cfg := by cases b <;> rfl
@[simp] theorem setBuffer_encOut (b : Bool) (f : Frame) (s : State) : (setBuffer b f s).encOut = s.encOut := by cases b <;> rfl
@[simp] theorem setBuffer_inputs (b : Bool) (f : Frame) (s : State) : (setBuffer b f s).inputs = s.inputs := by cases b <;> rfl

/-! ## cellWrite -/

@[simp] theorem cellWrite_phase (v : Cell) (s : State) : (cellWrite v s).phase = s.phase := by simp [cellWrite]
@[simp] theorem cellWrite_line (v : Cell) (s : State) : (cellWrite v s).line = s.line := by simp [cellWrite]
@[simp] theorem cellWrite_plane (v : Cell) (s : State) : (cellWrite v s).plane = s.plane := by simp [cellWrite]
@[simp] theorem cellWrite_hold (v : Cell) (s : State) : (cellWrite v s).hold = s.hold := by simp [cellWrite]
@[simp] theorem cellWrite_rowEn (v : Cell) (s : State) : (cellWrite v s).rowEn = s.rowEn := by simp [cellWrite]
@[simp] theorem cellWrite_colOut (v : Cell) (s : State) : (cellWrite v s).colOut = s.colOut := by simp [cellWrite]
@[simp] theorem cellWrite_rsel (v : Cell) (s : State) : (cellWrite v s).rsel = s.rsel := by simp [cellWrite]
@[simp] theorem cellWrite_run (v : Cell) (s : State) : (cellWrite v s).run = s.run := by simp [cellWrite]
@[simp] theorem cellWrite_sweepDone (v : Cell) (s : State) : (cellWrite v s).sweepDone = s.sweepDone := by simp [cellWrite]
@[simp] theorem cellWrite_swapReq (v : Cell) (s : State) : (cellWrite v s).swapReq = s.swapReq := by simp [cellWrite]
@[simp] theorem cellWrite_wdrop (v : Cell) (s : State) : (cellWrite v s).wdrop = s.wdrop := by simp [cellWrite]
@[simp] theorem cellWrite_cmderr (v : Cell) (s : State) : (cellWrite v s).cmderr = s.cmderr := by simp [cellWrite]
@[simp] theorem cellWrite_err (v : Cell) (s : State) : (cellWrite v s).err = s.err := by simp [cellWrite]
@[simp] theorem cellWrite_ie (v : Cell) (s : State) : (cellWrite v s).ie = s.ie := by simp [cellWrite]
@[simp] theorem cellWrite_cellX (v : Cell) (s : State) : (cellWrite v s).cellX = s.cellX := by simp [cellWrite]
@[simp] theorem cellWrite_cellY (v : Cell) (s : State) : (cellWrite v s).cellY = s.cellY := by simp [cellWrite]
@[simp] theorem cellWrite_hwLines (v : Cell) (s : State) : (cellWrite v s).hwLines = s.hwLines := by simp [cellWrite]
@[simp] theorem cellWrite_missCnt (v : Cell) (s : State) : (cellWrite v s).missCnt = s.missCnt := by simp [cellWrite]
@[simp] theorem cellWrite_faultVal (v : Cell) (s : State) : (cellWrite v s).faultVal = s.faultVal := by simp [cellWrite]
@[simp] theorem cellWrite_trace (v : Cell) (s : State) : (cellWrite v s).trace = s.trace := by simp [cellWrite]
@[simp] theorem cellWrite_port (v : Cell) (s : State) : (cellWrite v s).port = s.port := by simp [cellWrite]
@[simp] theorem cellWrite_rdata (v : Cell) (s : State) : (cellWrite v s).rdata = s.rdata := by simp [cellWrite]
@[simp] theorem cellWrite_cfg (v : Cell) (s : State) : (cellWrite v s).cfg = s.cfg := by simp [cellWrite]
@[simp] theorem cellWrite_encOut (v : Cell) (s : State) : (cellWrite v s).encOut = s.encOut := by simp [cellWrite]
@[simp] theorem cellWrite_inputs (v : Cell) (s : State) : (cellWrite v s).inputs = s.inputs := by simp [cellWrite]

/-! ## endSweep -/

@[simp] theorem endSweep_phase (s : State) : (endSweep s).phase = .idle := by cases h : s.swapReq <;> cases hr : s.rsel <;> simp_all [endSweep]
@[simp] theorem endSweep_line (s : State) : (endSweep s).line = s.line := by cases h : s.swapReq <;> cases hr : s.rsel <;> simp_all [endSweep]
@[simp] theorem endSweep_plane (s : State) : (endSweep s).plane = s.plane := by cases h : s.swapReq <;> cases hr : s.rsel <;> simp_all [endSweep]
@[simp] theorem endSweep_hold (s : State) : (endSweep s).hold = s.hold := by cases h : s.swapReq <;> cases hr : s.rsel <;> simp_all [endSweep]
@[simp] theorem endSweep_rowEn (s : State) : (endSweep s).rowEn = s.rowEn := by cases h : s.swapReq <;> cases hr : s.rsel <;> simp_all [endSweep]
@[simp] theorem endSweep_colOut (s : State) : (endSweep s).colOut = s.colOut := by cases h : s.swapReq <;> cases hr : s.rsel <;> simp_all [endSweep]
@[simp] theorem endSweep_rsel (s : State) : (endSweep s).rsel = (s.rsel != s.swapReq) := by cases h : s.swapReq <;> cases hr : s.rsel <;> simp_all [endSweep]
@[simp] theorem endSweep_fb0 (s : State) : (endSweep s).fb0 = s.fb0 := by cases h : s.swapReq <;> cases hr : s.rsel <;> simp_all [endSweep]
@[simp] theorem endSweep_fb1 (s : State) : (endSweep s).fb1 = s.fb1 := by cases h : s.swapReq <;> cases hr : s.rsel <;> simp_all [endSweep]
@[simp] theorem endSweep_run (s : State) : (endSweep s).run = s.run := by cases h : s.swapReq <;> cases hr : s.rsel <;> simp_all [endSweep]
@[simp] theorem endSweep_sweepDone (s : State) : (endSweep s).sweepDone = true := by cases h : s.swapReq <;> cases hr : s.rsel <;> simp_all [endSweep]
@[simp] theorem endSweep_swapReq (s : State) : (endSweep s).swapReq = false := by cases h : s.swapReq <;> cases hr : s.rsel <;> simp_all [endSweep]
@[simp] theorem endSweep_wdrop (s : State) : (endSweep s).wdrop = s.wdrop := by cases h : s.swapReq <;> cases hr : s.rsel <;> simp_all [endSweep]
@[simp] theorem endSweep_cmderr (s : State) : (endSweep s).cmderr = s.cmderr := by cases h : s.swapReq <;> cases hr : s.rsel <;> simp_all [endSweep]
@[simp] theorem endSweep_err (s : State) : (endSweep s).err = s.err := by cases h : s.swapReq <;> cases hr : s.rsel <;> simp_all [endSweep]
@[simp] theorem endSweep_ie (s : State) : (endSweep s).ie = s.ie := by cases h : s.swapReq <;> cases hr : s.rsel <;> simp_all [endSweep]
@[simp] theorem endSweep_cellX (s : State) : (endSweep s).cellX = s.cellX := by cases h : s.swapReq <;> cases hr : s.rsel <;> simp_all [endSweep]
@[simp] theorem endSweep_cellY (s : State) : (endSweep s).cellY = s.cellY := by cases h : s.swapReq <;> cases hr : s.rsel <;> simp_all [endSweep]
@[simp] theorem endSweep_hwLines (s : State) : (endSweep s).hwLines = s.hwLines := by cases h : s.swapReq <;> cases hr : s.rsel <;> simp_all [endSweep]
@[simp] theorem endSweep_missCnt (s : State) : (endSweep s).missCnt = (if s.swapReq then s.missCnt else missNext s.missCnt) := by cases h : s.swapReq <;> cases hr : s.rsel <;> simp_all [endSweep]
@[simp] theorem endSweep_faultVal (s : State) : (endSweep s).faultVal = s.faultVal := by cases h : s.swapReq <;> cases hr : s.rsel <;> simp_all [endSweep]
@[simp] theorem endSweep_trace (s : State) : (endSweep s).trace = s.trace ++ [.sweepComplete s.swapReq] := by cases h : s.swapReq <;> cases hr : s.rsel <;> simp_all [endSweep]
@[simp] theorem endSweep_port (s : State) : (endSweep s).port = s.port := by cases h : s.swapReq <;> cases hr : s.rsel <;> simp_all [endSweep]
@[simp] theorem endSweep_rdata (s : State) : (endSweep s).rdata = s.rdata := by cases h : s.swapReq <;> cases hr : s.rsel <;> simp_all [endSweep]
@[simp] theorem endSweep_cfg (s : State) : (endSweep s).cfg = s.cfg := by cases h : s.swapReq <;> cases hr : s.rsel <;> simp_all [endSweep]
@[simp] theorem endSweep_encOut (s : State) : (endSweep s).encOut = s.encOut := by cases h : s.swapReq <;> cases hr : s.rsel <;> simp_all [endSweep]
@[simp] theorem endSweep_inputs (s : State) : (endSweep s).inputs = s.inputs := by cases h : s.swapReq <;> cases hr : s.rsel <;> simp_all [endSweep]

/-! ## resetBlock -/

@[simp] theorem resetBlock_phase (s : State) : (resetBlock s).phase = .idle := rfl
@[simp] theorem resetBlock_line (s : State) : (resetBlock s).line = 0 := rfl
@[simp] theorem resetBlock_plane (s : State) : (resetBlock s).plane = 0 := rfl
@[simp] theorem resetBlock_hold (s : State) : (resetBlock s).hold = 0 := rfl
@[simp] theorem resetBlock_rowEn (s : State) : (resetBlock s).rowEn = 0 := rfl
@[simp] theorem resetBlock_colOut (s : State) : (resetBlock s).colOut = 0 := rfl
@[simp] theorem resetBlock_rsel (s : State) : (resetBlock s).rsel = false := rfl
@[simp] theorem resetBlock_fb0 (s : State) : (resetBlock s).fb0 = [] := rfl
@[simp] theorem resetBlock_fb1 (s : State) : (resetBlock s).fb1 = [] := rfl
@[simp] theorem resetBlock_run (s : State) : (resetBlock s).run = false := rfl
@[simp] theorem resetBlock_sweepDone (s : State) : (resetBlock s).sweepDone = false := rfl
@[simp] theorem resetBlock_swapReq (s : State) : (resetBlock s).swapReq = false := rfl
@[simp] theorem resetBlock_wdrop (s : State) : (resetBlock s).wdrop = false := rfl
@[simp] theorem resetBlock_cmderr (s : State) : (resetBlock s).cmderr = false := rfl
@[simp] theorem resetBlock_err (s : State) : (resetBlock s).err = 0 := rfl
@[simp] theorem resetBlock_ie (s : State) : (resetBlock s).ie = false := rfl
@[simp] theorem resetBlock_cellX (s : State) : (resetBlock s).cellX = 0 := rfl
@[simp] theorem resetBlock_cellY (s : State) : (resetBlock s).cellY = 0 := rfl
@[simp] theorem resetBlock_hwLines (s : State) : (resetBlock s).hwLines = 0 := rfl
@[simp] theorem resetBlock_missCnt (s : State) : (resetBlock s).missCnt = 0 := rfl
@[simp] theorem resetBlock_faultVal (s : State) : (resetBlock s).faultVal = 0 := rfl
@[simp] theorem resetBlock_trace (s : State) : (resetBlock s).trace = [] := rfl
@[simp] theorem resetBlock_port (s : State) : (resetBlock s).port = 0 := rfl
@[simp] theorem resetBlock_rdata (s : State) : (resetBlock s).rdata = 0 := rfl
@[simp] theorem resetBlock_cfg (s : State) : (resetBlock s).cfg = s.cfg := rfl
@[simp] theorem resetBlock_encOut (s : State) : (resetBlock s).encOut = 0 := rfl
@[simp] theorem resetBlock_inputs (s : State) : (resetBlock s).inputs = s.inputs := rfl

/-! ## The buffer pair, read through its selector -/

@[simp] theorem buffer_false (s : State) : buffer s false = s.fb0 := rfl

@[simp] theorem buffer_true (s : State) : buffer s true = s.fb1 := rfl

@[simp] theorem writeSide_eq (s : State) : writeSide s = !s.rsel := rfl

theorem buffer_setBuffer_same (b : Bool) (f : Frame) (s : State) : buffer (setBuffer b f s) b = f := by
  cases b <;> rfl

theorem buffer_setBuffer_other (b : Bool) (f : Frame) (s : State) : buffer (setBuffer b f s) (!b) = buffer s (!b) := by
  cases b <;> rfl

/-- The buffers are two fields, so an operation that keeps both keeps either side. -/
theorem buffer_eq_of_fields {s t : State} (h0 : t.fb0 = s.fb0) (h1 : t.fb1 = s.fb1) (b : Bool) : buffer t b = buffer s b := by
  cases b <;> simp [h0, h1]

/-- The host's store goes to the write side at the pointer. -/
theorem buffer_cellWrite_writeSide (v : Cell) (s : State) :
    buffer (cellWrite v s) (!s.rsel) =
      Frame.write (buffer s (!s.rsel)) (cellKey s.cellY.toNat s.cellX.toNat) v := by
  simp [cellWrite, buffer_setBuffer_same]

/-- The host's store leaves the read side alone (20_memory.md R62). -/
theorem buffer_cellWrite_readSide (v : Cell) (s : State) : buffer (cellWrite v s) s.rsel = buffer s s.rsel := by
  have h := buffer_setBuffer_other (!s.rsel) (Frame.write (buffer s (!s.rsel)) (cellKey s.cellY.toNat s.cellX.toNat) v) s
  simpa [cellWrite] using h

end Sys2Proof.Machine
end

