-- ==== Sys2Proof/Laws/Ops.lean ====
section
/-! SUPPORT. What each shared operation can do, said once: when it answers a next state, and which. -/

namespace Sys2Proof.Machine

@[simp] theorem andThen_next (s : State) (f : State → Out) : andThen (.next s) f = f s := rfl

@[simp] theorem andThen_fault (r : Fault) (f : State → Out) : andThen (.fault r) f = .fault r := rfl

@[simp] theorem andThen_refused (r : Refusal) (f : State → Out) : andThen (.refused r) f = .refused r := rfl

@[simp] theorem andThen_pure (o : Out) : (andThen o fun s => .next s) = o := by cases o <;> rfl

/-- Two operations in a row complete exactly when both do. -/
theorem andThen_eq_next {o : Out} {f : State → Out} {t : State} :
    andThen o f = .next t ↔ ∃ s, o = .next s ∧ f s = .next t := by
  cases o <;> simp

@[simp] theorem busRead_eq (v : Word) (s : State) : busRead v s = .next { s with rdata := v } := rfl

@[simp] theorem busIgnore_eq (s : State) : busIgnore s = .next s := rfl

theorem busWrite_of_halt {f : State → Out} {s : State} (h : s.phase = .halt) : busWrite f s = .next s := by
  simp [busWrite, h]

theorem busWrite_of_not_halt {f : State → Out} {s : State} (h : s.phase ≠ .halt) : busWrite f s = f s := by
  simp [busWrite, h]

/-- A write either is ignored in HALT or does what its rule says. -/
theorem busWrite_eq_next {f : State → Out} {s t : State} :
    busWrite f s = .next t ↔ s.phase = .halt ∧ t = s ∨ s.phase ≠ .halt ∧ f s = .next t := by
  by_cases h : s.phase = .halt <;> simp [busWrite, h, eq_comm]

theorem withCell_eq_next {f : State → Out} {s t : State} :
    withCell f s = .next t ↔ cellExists s.cfg s.cellY.toNat s.cellX.toNat = true ∧ f s = .next t := by
  unfold withCell
  split <;> simp_all

theorem transition_eq_next {b : Bool} {o : Out} {t : State} : transition b o = .next t ↔ b = true ∧ o = .next t := by
  cases b <;> simp [transition]

theorem inRange_eq_next {b : Bool} {o : Out} {t : State} : inRange b o = .next t ↔ b = true ∧ o = .next t := by
  cases b <;> simp [inRange]

/-- A plane load completes exactly when the line and the plane exist. -/
theorem loadPlane_eq_next {s t : State} : loadPlane s = .next t ↔ scanExists s = true ∧ t = loadPlaneAt s := by
  cases h : scanExists s <;> simp [loadPlane, h, eq_comm]

theorem loadPlane_of_exists {s : State} (h1 : s.line.toNat < s.cfg.rows) (h2 : s.plane.toNat < s.cfg.n) :
    loadPlane s = .next (loadPlaneAt s) := by
  simp [loadPlane, scanExists, h1, h2]

/-- Where `BeginSweep()` goes: line 0, plane 0 of the present read side. -/
def sweepBegun (s : State) : State :=
  loadPlaneAt (activateLine 0 { s with line := 0, plane := 0, phase := .sweepPlane })

@[simp] theorem sweepBegun_phase (s : State) : (sweepBegun s).phase = .sweepPlane := rfl
@[simp] theorem sweepBegun_line (s : State) : (sweepBegun s).line = 0 := rfl
@[simp] theorem sweepBegun_plane (s : State) : (sweepBegun s).plane = 0 := rfl
@[simp] theorem sweepBegun_hold (s : State) : (sweepBegun s).hold = holdTicks s.cfg 0 := rfl
@[simp] theorem sweepBegun_rowEn (s : State) : (sweepBegun s).rowEn = onehot 0 := rfl
@[simp] theorem sweepBegun_colOut (s : State) : (sweepBegun s).colOut = planeRow s 0 0 := rfl
@[simp] theorem sweepBegun_rsel (s : State) : (sweepBegun s).rsel = s.rsel := rfl
@[simp] theorem sweepBegun_fb0 (s : State) : (sweepBegun s).fb0 = s.fb0 := rfl
@[simp] theorem sweepBegun_fb1 (s : State) : (sweepBegun s).fb1 = s.fb1 := rfl
@[simp] theorem sweepBegun_run (s : State) : (sweepBegun s).run = s.run := rfl
@[simp] theorem sweepBegun_sweepDone (s : State) : (sweepBegun s).sweepDone = s.sweepDone := rfl
@[simp] theorem sweepBegun_swapReq (s : State) : (sweepBegun s).swapReq = s.swapReq := rfl
@[simp] theorem sweepBegun_missCnt (s : State) : (sweepBegun s).missCnt = s.missCnt := rfl
@[simp] theorem sweepBegun_cfg (s : State) : (sweepBegun s).cfg = s.cfg := rfl
@[simp] theorem sweepBegun_inputs (s : State) : (sweepBegun s).inputs = s.inputs := rfl
@[simp] theorem sweepBegun_trace (s : State) : (sweepBegun s).trace =
    s.trace ++ [.activateLine 0, .shiftOutPlane (planeRow s 0 0), .waitTicks (holdTicks s.cfg 0)] := by
  simp only [sweepBegun, loadPlaneAt, waitTicks, shiftOutPlane, activateLine, emit, List.append_assoc]
  rfl

/-! The tick step never writes a buffer (41_scan_fsm.md R149, 20_memory.md R73). -/

@[simp] theorem buffer_loadPlaneAt (s : State) (b : Bool) : buffer (loadPlaneAt s) b = buffer s b := rfl
@[simp] theorem buffer_activateLine (n : BitVec 16) (s : State) (b : Bool) : buffer (activateLine n s) b = buffer s b := rfl
@[simp] theorem buffer_holdDown (s : State) (b : Bool) : buffer (holdDown s) b = buffer s b := rfl
@[simp] theorem buffer_sweepBegun (s : State) (b : Bool) : buffer (sweepBegun s) b = buffer s b := rfl

@[simp] theorem buffer_endSweep (s : State) (b : Bool) : buffer (endSweep s) b = buffer s b := by
  cases h : s.swapReq <;> simp [endSweep, h, buffer, emit]

theorem beginSweep_of_legal {s : State} (h : s.cfg.Legal) : beginSweep s = .next (sweepBegun s) := by
  obtain ⟨h1, -, -, -, h2, -⟩ := h
  exact loadPlane_of_exists (Nat.lt_of_lt_of_le Nat.zero_lt_one h1) (Nat.lt_of_lt_of_le Nat.zero_lt_one h2)

theorem beginSweep_eq_next {s t : State} (h : beginSweep s = .next t) : t = sweepBegun s :=
  (loadPlane_eq_next.mp h).2

/-- Everything a tick can do, by the phase and the scan position it finds. -/
theorem tick_cases {s t : State} (h : tick s = .next t) :
    (s.phase = .halt ∧ t = s) ∨
    (s.phase = .idle ∧ s.run = false ∧ t = s) ∨
    (s.phase = .idle ∧ s.run = true ∧ t = sweepBegun s) ∨
    (s.phase = .sweepPlane ∧ 1 < s.hold.toNat ∧ t = holdDown s) ∨
    (s.phase = .sweepPlane ∧ s.hold.toNat ≤ 1 ∧ s.plane.toNat < s.cfg.n - 1 ∧
      t = loadPlaneAt { s with plane := s.plane + 1 }) ∨
    (s.phase = .sweepPlane ∧ s.hold.toNat ≤ 1 ∧ s.cfg.n - 1 ≤ s.plane.toNat ∧ s.line.toNat < s.cfg.rows - 1 ∧
      t = loadPlaneAt (activateLine (s.line + 1) { s with line := s.line + 1, plane := 0, phase := .sweepPlane })) ∨
    (s.phase = .sweepPlane ∧ s.hold.toNat ≤ 1 ∧ s.cfg.n - 1 ≤ s.plane.toNat ∧ s.cfg.rows - 1 ≤ s.line.toNat ∧
      t = sweepBegun (endSweep s)) := by
  unfold tick at h
  split at h
  · rename_i hp
    exact .inl ⟨hp, by simpa using h.symm⟩
  · rename_i hp
    split at h
    · rename_i hr
      exact .inr (.inr (.inl ⟨hp, hr, beginSweep_eq_next h⟩))
    · rename_i hr
      exact .inr (.inl ⟨hp, by simpa using hr, by simpa using h.symm⟩)
  · rename_i hp
    split at h
    · rename_i hh
      exact .inr (.inr (.inr (.inl ⟨hp, hh, by simpa using h.symm⟩)))
    · rename_i hh
      have hh' : s.hold.toNat ≤ 1 := by omega
      unfold planeExpired at h
      split at h
      · rename_i hpl
        exact .inr (.inr (.inr (.inr (.inl ⟨hp, hh', hpl, (loadPlane_eq_next.mp h).2⟩))))
      · rename_i hpl
        have hpl' : s.cfg.n - 1 ≤ s.plane.toNat := by omega
        unfold advanceLine at h
        split at h
        · rename_i hl
          exact .inr (.inr (.inr (.inr (.inr (.inl ⟨hp, hh', hpl', hl, (loadPlane_eq_next.mp h).2⟩)))))
        · rename_i hl
          have hl' : s.cfg.rows - 1 ≤ s.line.toNat := by simpa using hl
          have he := beginSweep_eq_next h
          refine .inr (.inr (.inr (.inr (.inr (.inr ⟨hp, hh', hpl', hl', ?_⟩)))))
          rw [he]
          cases hs : s.swapReq <;> simp [endSweep, hs, emit]
  · cases h
  · cases h

/-- A step with legal parameters: the first event of the schedule, or a tick. -/
theorem step_nil {s : State} (hc : s.cfg.Legal) (h : s.inputs = []) : step s = tick s := by
  simp only [step, takeStep, h]
  exact if_pos hc

theorem step_cons {s : State} {e : Input} {r : List Input} (hc : s.cfg.Legal) (h : s.inputs = e :: r) :
    step s = arrive e { s with inputs := r } := by
  simp only [step, takeStep, h]
  exact if_pos hc

end Sys2Proof.Machine
end

