-- ==== Sys2Proof/Laws/Bus.lean ====
section
/-! SUPPORT. Everything a bus step can do, said once: a case split of each decoder of the BUS and CMD formats, and
the inversion of `exec` on what they give. -/

namespace Sys2Proof

/-- What holds of the sixteen write operations holds of every decoded write. -/
theorem decodeWrite_cases {P : Instr → Prop} (v : Word) (h0 : P (.wrCtrl v)) (h1 : P (.wrStatus v))
    (h2 : P (decodeCommand v)) (h3 : P (.wrCellAddr v)) (h4 : P (.wrCellData v)) (h5 : P (.wrMissCnt v)) (h6 : P (.wrGeom v))
    (h7 : P (.wrDepth v)) (h8 : P (.wrTunit v)) (h9 : P (.wrHwLines v)) (h10 : P (.wrScanpos v)) (h11 : P (.wrHold v))
    (h12 : P (.wrFaultval v)) (h13 : P (.wrRsv13 v)) (h14 : P (.wrRsv14 v)) (h15 : P (.wrRsv15 v)) (a : BitVec 4) :
    P (decodeWrite a v) := by
  obtain ⟨k, hk⟩ := a
  change k < 16 at hk
  interval_cases k <;> assumption

/-- What holds of the four commands holds of every decoded command. -/
theorem decodeCommand_cases {P : Instr → Prop} (v : Word) (h0 : P .cmdNop) (h1 : P .cmdStart) (h2 : P .cmdSwapRequest)
    (h3 : 2 < v.toNat → P (.cmdReserved v)) : P (decodeCommand v) := by
  unfold decodeCommand
  split_ifs with a b c
  · exact h0
  · exact h1
  · exact h2
  · refine h3 (Nat.lt_of_not_le fun h => ?_)
    have : v.toNat = 0 ∨ v.toNat = 1 ∨ v.toNat = 2 := by omega
    rcases this with h | h | h
    · exact a (BitVec.eq_of_toNat_eq h)
    · exact b (BitVec.eq_of_toNat_eq h)
    · exact c (BitVec.eq_of_toNat_eq h)

/-- What holds of the sixteen read operations holds of every decoded read. -/
theorem decodeRead_cases {P : Instr → Prop} (h0 : P .rdCtrl) (h1 : P .rdStatus) (h2 : P .rdCmd) (h3 : P .rdCellAddr)
    (h4 : P .rdCellData) (h5 : P .rdMissCnt) (h6 : P .rdGeom) (h7 : P .rdDepth) (h8 : P .rdTunit) (h9 : P .rdHwLines)
    (h10 : P .rdScanpos) (h11 : P .rdHold) (h12 : P .rdFaultval) (h13 : P .rdRsv13) (h14 : P .rdRsv14) (h15 : P .rdRsv15)
    (a : BitVec 4) : P (decodeRead a) := by
  obtain ⟨k, hk⟩ := a
  change k < 16 at hk
  interval_cases k <;> assumption

/-- Every transaction decodes to a well-formed operation (30_encoding.md R102). -/
theorem decodeBus_wf (p : Params) (t : BusWord) : (decodeBus t).wf p = true := by
  unfold decodeBus
  split
  · exact decodeWrite_cases (P := fun i => i.wf p = true) _ rfl rfl
      (decodeCommand_cases (P := fun i => i.wf p = true) _ rfl rfl rfl fun h => decide_eq_true h)
      rfl rfl rfl rfl rfl rfl rfl rfl rfl rfl rfl rfl rfl _
  · exact decodeRead_cases (P := fun i => i.wf p = true) rfl rfl rfl rfl rfl rfl rfl rfl rfl rfl rfl rfl rfl rfl rfl rfl _

/-- A decoded write encodes back to its transaction. -/
theorem encode_decodeWrite (p : Params) (a : BitVec 4) (v : Word) : encode p (decodeWrite a v) = encodeWrite a v := by
  obtain ⟨k, hk⟩ := a
  change k < 16 at hk
  interval_cases k
  on_goal 3 =>
    change encode p (decodeCommand v) = encodeWrite 2#4 v
    unfold decodeCommand
    split_ifs with a b c
    · subst a
      rfl
    · subst b
      rfl
    · subst c
      rfl
    · rfl
  all_goals rfl

/-- A decoded read encodes back to the read of its index, with wdata 0. -/
theorem encode_decodeRead (p : Params) (a : BitVec 4) : encode p (decodeRead a) = encodeRead a := by
  obtain ⟨k, hk⟩ := a
  change k < 16 at hk
  interval_cases k <;> rfl

namespace Machine

/-- The next states a bus step can have: nothing, a read, or one of the writes' effects, none of them in HALT. -/
inductive BusEffect (s : State) : State → Prop
  | same : BusEffect s s
  | read (v : Word) : BusEffect s { s with rdata := v }
  | ie (h : s.phase ≠ .halt) (v : Bool) : BusEffect s { s with ie := v }
  | clear (h : s.phase ≠ .halt) (v : Word) : BusEffect s (clearFlags v s)
  | lines (h : s.phase ≠ .halt) (v : Word) : BusEffect s { s with hwLines := v }
  | start (h : s.phase ≠ .halt) : BusEffect s { s with run := true }
  | request (h : s.phase ≠ .halt) : BusEffect s { s with swapReq := true }
  | badCommand (h : s.phase ≠ .halt) : BusEffect s { s with cmderr := true }
  | dropped (h : s.phase ≠ .halt) : BusEffect s { s with wdrop := true }
  | halt (h : s.phase ≠ .halt) (c : BitVec 2) (v : Word) (hc : c = 2 ∨ c = 3) : BusEffect s (halt c v s)
  | pointer (h : s.phase ≠ .halt) (v : Word) (hv : coordInGeometry s.cfg v = true) :
      BusEffect s { s with cellX := coordX v, cellY := coordY v }
  | store (h : s.phase ≠ .halt) (v : Word) (hp : cellExists s.cfg s.cellY.toNat s.cellX.toNat = true)
      (hs : s.swapReq = false) : BusEffect s (cellWrite (cellValue s.cfg v) s)

theorem busWrite_effect {s t : State} {f : State → Out} (hf : s.phase ≠ .halt → f s = .next t → BusEffect s t)
    (h : busWrite f s = .next t) : BusEffect s t := by
  rcases busWrite_eq_next.mp h with ⟨-, rfl⟩ | ⟨h1, h2⟩
  · exact .same
  · exact hf h1 h2

/-- Every decoded write has one of these effects. -/
theorem decodeWrite_effect {a : BitVec 4} {v : Word} {s t : State} (h : exec (decodeWrite a v) s = .next t) :
    BusEffect s t := by
  revert h
  refine decodeWrite_cases (P := fun i => exec i s = .next t → BusEffect s t) v ?_ ?_
    (decodeCommand_cases (P := fun i => exec i s = .next t → BusEffect s t) v ?_ ?_ ?_ fun _ => ?_)
    ?_ ?_ ?_ ?_ ?_ ?_ ?_ ?_ ?_ ?_ ?_ ?_ ?_ a <;> intro h
  any_goals (cases h; exact .same)
  all_goals
    simp only [exec, execWrCtrl, execWrStatus, execCmdStart, execCmdSwapRequest, execCmdReserved, execWrCellAddr,
      execWrCellData, execWrHwLines] at h
    refine busWrite_effect ?_ h
    intro hs h
  · cases h
    exact .ie hs _
  · cases h
    exact .clear hs _
  · cases h
    split_ifs
    · exact .same
    · exact .halt hs _ _ (.inr rfl)
    · exact .start hs
  · cases h
    exact .request hs
  · cases h
    exact .badCommand hs
  · cases h
    split_ifs with hv
    · exact .pointer hs _ hv
    · exact .halt hs _ _ (.inl rfl)
  · split_ifs at h with hq
    · cases h
      exact .dropped hs
    · obtain ⟨hp, h⟩ := withCell_eq_next.mp h
      cases h
      exact .store hs _ hp (eq_false_of_ne_true hq)
  · cases h
    exact .lines hs _

/-- Every decoded read gives a value on `rdata`, and nothing else. -/
theorem decodeRead_effect {a : BitVec 4} {s t : State} (h : exec (decodeRead a) s = .next t) :
    ∃ v : Word, t = { s with rdata := v } := by
  revert h
  refine decodeRead_cases (P := fun i => exec i s = .next t → ∃ v : Word, t = { s with rdata := v })
    ?_ ?_ ?_ ?_ ?_ ?_ ?_ ?_ ?_ ?_ ?_ ?_ ?_ ?_ ?_ ?_ a <;> intro h
  any_goals (cases h; exact ⟨_, rfl⟩)
  obtain ⟨-, h⟩ := withCell_eq_next.mp h
  cases h
  exact ⟨_, rfl⟩

/-- The inversion of a bus step. -/
theorem decodeBus_effect {w : BusWord} {s t : State} (h : exec (decodeBus w) s = .next t) : BusEffect s t := by
  unfold decodeBus at h
  split_ifs at h
  · exact decodeWrite_effect h
  · obtain ⟨v, rfl⟩ := decodeRead_effect h
    exact .read v

end Machine

end Sys2Proof
end

