-- ==== Sys2Proof/Laws/PerInstr.lean ====
section
/-! SUPPORT. Statements about every instruction, one lemma per constructor. Family `Fits`: the encoding of a well-formed
operation fits the fixed length of its format (30_encoding.md R103). -/

namespace Sys2Proof

/-- The encoding of a well-formed operation fits its length. -/
def Laws.Fits.Statement (i : Instr) : Prop :=
  ∀ p : Params, i.wf p = true → (encode p i).val < 2 ^ (encode p i).len

/-- Every bus word fits 37 bits. -/
theorem busCode_fits (t : BusWord) : (busCode t).val < 2 ^ (busCode t).len := t.isLt

/-- An event code of a fitting tag and argument fits. -/
theorem encodeEvt_fits {tag w arg : Nat} (ht : tag < 8) (ha : arg < 2 ^ w) :
    (encodeEvt tag w arg).val < 2 ^ (encodeEvt tag w arg).len := by
  simp only [encodeEvt, Nat.pow_add]
  have : tag * 2 ^ w ≤ 7 * 2 ^ w := Nat.mul_le_mul_right _ (by omega)
  omega

theorem encodeFsm_fits {v : Nat} (h : v < 2 ^ 7) : (encodeFsm v).val < 2 ^ (encodeFsm v).len := h

theorem encodeEnc_fits {f : Nat} (i : BitVec 4) (x : BitVec 16) (hf : f < 2) :
    (encodeEnc f i x).val < 2 ^ (encodeEnc f i x).len := by
  have h1 := i.isLt
  have h2 := x.isLt
  simp only [encodeEnc]
  omega

theorem Laws.Fits.wrCtrl (v : Word) : Laws.Fits.Statement (.wrCtrl v) := fun _ _ => busCode_fits _

theorem Laws.Fits.rdCtrl : Laws.Fits.Statement .rdCtrl := fun _ _ => busCode_fits _

theorem Laws.Fits.wrStatus (v : Word) : Laws.Fits.Statement (.wrStatus v) := fun _ _ => busCode_fits _

theorem Laws.Fits.rdStatus : Laws.Fits.Statement .rdStatus := fun _ _ => busCode_fits _

theorem Laws.Fits.rdCmd : Laws.Fits.Statement .rdCmd := fun _ _ => busCode_fits _

theorem Laws.Fits.wrCellAddr (v : Word) : Laws.Fits.Statement (.wrCellAddr v) := fun _ _ => busCode_fits _

theorem Laws.Fits.rdCellAddr : Laws.Fits.Statement .rdCellAddr := fun _ _ => busCode_fits _

theorem Laws.Fits.wrCellData (v : Word) : Laws.Fits.Statement (.wrCellData v) := fun _ _ => busCode_fits _

theorem Laws.Fits.rdCellData : Laws.Fits.Statement .rdCellData := fun _ _ => busCode_fits _

theorem Laws.Fits.wrMissCnt (v : Word) : Laws.Fits.Statement (.wrMissCnt v) := fun _ _ => busCode_fits _

theorem Laws.Fits.rdMissCnt : Laws.Fits.Statement .rdMissCnt := fun _ _ => busCode_fits _

theorem Laws.Fits.wrGeom (v : Word) : Laws.Fits.Statement (.wrGeom v) := fun _ _ => busCode_fits _

theorem Laws.Fits.rdGeom : Laws.Fits.Statement .rdGeom := fun _ _ => busCode_fits _

theorem Laws.Fits.wrDepth (v : Word) : Laws.Fits.Statement (.wrDepth v) := fun _ _ => busCode_fits _

theorem Laws.Fits.rdDepth : Laws.Fits.Statement .rdDepth := fun _ _ => busCode_fits _

theorem Laws.Fits.wrTunit (v : Word) : Laws.Fits.Statement (.wrTunit v) := fun _ _ => busCode_fits _

theorem Laws.Fits.rdTunit : Laws.Fits.Statement .rdTunit := fun _ _ => busCode_fits _

theorem Laws.Fits.wrHwLines (v : Word) : Laws.Fits.Statement (.wrHwLines v) := fun _ _ => busCode_fits _

theorem Laws.Fits.rdHwLines : Laws.Fits.Statement .rdHwLines := fun _ _ => busCode_fits _

theorem Laws.Fits.wrScanpos (v : Word) : Laws.Fits.Statement (.wrScanpos v) := fun _ _ => busCode_fits _

theorem Laws.Fits.rdScanpos : Laws.Fits.Statement .rdScanpos := fun _ _ => busCode_fits _

theorem Laws.Fits.wrHold (v : Word) : Laws.Fits.Statement (.wrHold v) := fun _ _ => busCode_fits _

theorem Laws.Fits.rdHold : Laws.Fits.Statement .rdHold := fun _ _ => busCode_fits _

theorem Laws.Fits.wrFaultval (v : Word) : Laws.Fits.Statement (.wrFaultval v) := fun _ _ => busCode_fits _

theorem Laws.Fits.rdFaultval : Laws.Fits.Statement .rdFaultval := fun _ _ => busCode_fits _

theorem Laws.Fits.wrRsv13 (v : Word) : Laws.Fits.Statement (.wrRsv13 v) := fun _ _ => busCode_fits _

theorem Laws.Fits.rdRsv13 : Laws.Fits.Statement .rdRsv13 := fun _ _ => busCode_fits _

theorem Laws.Fits.wrRsv14 (v : Word) : Laws.Fits.Statement (.wrRsv14 v) := fun _ _ => busCode_fits _

theorem Laws.Fits.rdRsv14 : Laws.Fits.Statement .rdRsv14 := fun _ _ => busCode_fits _

theorem Laws.Fits.wrRsv15 (v : Word) : Laws.Fits.Statement (.wrRsv15 v) := fun _ _ => busCode_fits _

theorem Laws.Fits.rdRsv15 : Laws.Fits.Statement .rdRsv15 := fun _ _ => busCode_fits _

theorem Laws.Fits.cmdNop : Laws.Fits.Statement .cmdNop := fun _ _ => busCode_fits _

theorem Laws.Fits.cmdStart : Laws.Fits.Statement .cmdStart := fun _ _ => busCode_fits _

theorem Laws.Fits.cmdSwapRequest : Laws.Fits.Statement .cmdSwapRequest := fun _ _ => busCode_fits _

theorem Laws.Fits.cmdReserved (v : Word) : Laws.Fits.Statement (.cmdReserved v) := fun _ _ => busCode_fits _

theorem Laws.Fits.evtDeactivateLines : Laws.Fits.Statement .evtDeactivateLines := fun _ _ => encodeEvt_fits (by decide) (by decide)

theorem Laws.Fits.evtActivateLine (n : BitVec 16) : Laws.Fits.Statement (.evtActivateLine n) := fun _ _ => encodeEvt_fits (by decide) n.isLt

theorem Laws.Fits.evtShiftOutPlane (bits : Nat) : Laws.Fits.Statement (.evtShiftOutPlane bits) := fun _ h => encodeEvt_fits (by decide) (of_decide_eq_true h)

theorem Laws.Fits.evtWaitTicks (n : BitVec 32) : Laws.Fits.Statement (.evtWaitTicks n) := fun _ _ => encodeEvt_fits (by decide) n.isLt

theorem Laws.Fits.evtSweepComplete (swapped : Bool) : Laws.Fits.Statement (.evtSweepComplete swapped) := fun _ _ => encodeEvt_fits (by decide) swapped.toNat_lt

theorem Laws.Fits.evtHalted (code : BitVec 2) : Laws.Fits.Statement (.evtHalted code) := fun _ _ => encodeEvt_fits (by decide) code.isLt

theorem Laws.Fits.fsmIdleStay : Laws.Fits.Statement .fsmIdleStay := fun _ _ => encodeFsm_fits (by decide)

theorem Laws.Fits.fsmBeginSweep : Laws.Fits.Statement .fsmBeginSweep := fun _ _ => encodeFsm_fits (by decide)

theorem Laws.Fits.fsmHold : Laws.Fits.Statement .fsmHold := fun _ _ => encodeFsm_fits (by decide)

theorem Laws.Fits.fsmNextPlane : Laws.Fits.Statement .fsmNextPlane := fun _ _ => encodeFsm_fits (by decide)

theorem Laws.Fits.fsmLineDone : Laws.Fits.Statement .fsmLineDone := fun _ _ => encodeFsm_fits (by decide)

theorem Laws.Fits.fsmNextLine : Laws.Fits.Statement .fsmNextLine := fun _ _ => encodeFsm_fits (by decide)

theorem Laws.Fits.fsmLastLine : Laws.Fits.Statement .fsmLastLine := fun _ _ => encodeFsm_fits (by decide)

theorem Laws.Fits.fsmSweepEnd : Laws.Fits.Statement .fsmSweepEnd := fun _ _ => encodeFsm_fits (by decide)

theorem Laws.Fits.fsmHaltStay : Laws.Fits.Statement .fsmHaltStay := fun _ _ => encodeFsm_fits (by decide)

theorem Laws.Fits.fsmFatalIdle : Laws.Fits.Statement .fsmFatalIdle := fun _ _ => encodeFsm_fits (by decide)

theorem Laws.Fits.fsmFatalSweep : Laws.Fits.Statement .fsmFatalSweep := fun _ _ => encodeFsm_fits (by decide)

theorem Laws.Fits.encPlaneBit (i : BitVec 4) (v : BitVec 16) : Laws.Fits.Statement (.encPlaneBit i v) := fun _ _ => encodeEnc_fits i v (by decide)

theorem Laws.Fits.encPlaneRow (i : BitVec 4) (y : BitVec 16) : Laws.Fits.Statement (.encPlaneRow i y) := fun _ _ => encodeEnc_fits i y (by decide)

end Sys2Proof
end

