-- ==== Sys2Proof/Laws/Script.lean ====
section
/-! SUPPORT. What a script's write of a computed number is: a bus step where the number fits the port, and a refused code
where it does not (log 15). -/

namespace Sys2Proof.Machine

/-- A number of 32 bits is written as it is. -/
theorem wrNumber_of_lt {v : Nat} (a : BitVec 4) (h : v < 2 ^ 32) : wrNumber a v = wr a (BitVec.ofNat 32 v) := if_pos h

/-- Coordinates of 16 bits, so those of every cell of every legal geometry, give one write of CELL_ADDR. -/
theorem seek_of_lt {x y : Nat} (hx : x < 65536) (hy : y < 65536) : seek x y = [wr 3 (BitVec.ofNat 32 (y * 65536 + x))] := by
  rw [seek, wrNumber_of_lt 3 (by omega)]

/-- A wider number is no bus step of any build: the decoder refuses its code by name. -/
theorem wrNumber_refused {v : Nat} (a : BitVec 4) (h : 2 ^ 32 ≤ v) (s : State) :
    arrive (wrNumber a v) s = .refused (.undecodable .valueTooWide) := by
  rw [wrNumber, if_neg (Nat.not_lt.2 h)]
  simp only [arrive, runCode, decode]
  rw [if_neg (by omega)]

end Sys2Proof.Machine
end

