-- ==== Sys2Proof/Laws/Sweep.lean ====
section
/-! SUPPORT. What a proof that follows a sweep needs: the counters do not wrap (41_scan_fsm.md R147, R148), a plane's hold as a number
(30_encoding.md R97), and the events of 42_gpio_sequencer.md R178 still to come at a line and plane. -/

namespace Sys2Proof.Machine

theorem line_succ {s : State} (hc : s.cfg.Legal) (h : s.line.toNat < s.cfg.rows - 1) :
    (s.line + 1).toNat = s.line.toNat + 1 := by
  obtain ⟨_, _, _, _, _, _, _, _⟩ := hc
  rw [BitVec.toNat_add]
  simp only [BitVec.ofNat_eq_ofNat, BitVec.toNat_ofNat]
  omega

theorem plane_succ {s : State} (hc : s.cfg.Legal) (h : s.plane.toNat < s.cfg.n - 1) :
    (s.plane + 1).toNat = s.plane.toNat + 1 := by
  obtain ⟨_, _, _, _, _, _, _, _⟩ := hc
  rw [BitVec.toNat_add]
  simp only [BitVec.ofNat_eq_ofNat, BitVec.toNat_ofNat]
  omega

/-- The hold of a plane that exists fits its 32 bits (00_scope.md R7). -/
theorem holdTicks_toNat {p : Params} (hc : p.Legal) {i : Nat} (hi : i < p.n) : (holdTicks p i).toNat = p.tUnit * 2 ^ i := by
  obtain ⟨_, _, _, _, _, _, _, h⟩ := hc
  have : p.tUnit * 2 ^ i ≤ p.tUnit * 2 ^ (p.n - 1) :=
    Nat.mul_le_mul_left _ (Nat.pow_le_pow_right (by decide) (by omega))
  simp only [holdTicks, BitVec.toNat_ofNat]
  exact Nat.mod_eq_of_lt (by omega)

/-! ## The events of a sweep still to come once plane `i` of line `y` is loaded -/

def restEvents (p : Params) (f : Frame) (y i : Nat) : List Event :=
  (List.range' (i + 1) (p.n - 1 - i)).flatMap (planeEvents p f y) ++
    (List.range' (y + 1) (p.rows - 1 - y)).flatMap (lineEvents p f)

theorem restEvents_next_plane (p : Params) (f : Frame) (y : Nat) {i : Nat} (h : i + 1 < p.n) :
    restEvents p f y i = planeEvents p f y (i + 1) ++ restEvents p f y (i + 1) := by
  obtain ⟨m, hm⟩ : ∃ m, p.n - 1 - i = m + 1 := ⟨p.n - 2 - i, by omega⟩
  have : p.n - 1 - (i + 1) = m := by omega
  simp [restEvents, hm, this, List.range'_succ]

theorem lineEvents_first_plane (p : Params) (f : Frame) (y : Nat) (h : 1 ≤ p.n) :
    lineEvents p f y = .activateLine (BitVec.ofNat 16 y) :: planeEvents p f y 0 ++
      (List.range' 1 (p.n - 1)).flatMap (planeEvents p f y) := by
  obtain ⟨m, hm⟩ : ∃ m, p.n = m + 1 := ⟨p.n - 1, by omega⟩
  simp [lineEvents, hm, List.range_eq_range', List.range'_succ]

theorem restEvents_next_line (p : Params) (f : Frame) {y i : Nat} (hn : 1 ≤ p.n) (hi : i + 1 = p.n) (h : y + 1 < p.rows) :
    restEvents p f y i =
      .activateLine (BitVec.ofNat 16 (y + 1)) :: planeEvents p f (y + 1) 0 ++ restEvents p f (y + 1) 0 := by
  obtain ⟨m, hm⟩ : ∃ m, p.rows - 1 - y = m + 1 := ⟨p.rows - 2 - y, by omega⟩
  have h1 : p.rows - 1 - (y + 1) = m := by omega
  have h2 : p.n - 1 - i = 0 := by omega
  simp [restEvents, hm, h1, h2, List.range'_succ, lineEvents_first_plane _ _ _ hn]

theorem restEvents_last (p : Params) (f : Frame) {y i : Nat} (hi : i + 1 = p.n) (h : y + 1 = p.rows) :
    restEvents p f y i = [] := by
  have h1 : p.rows - 1 - y = 0 := by omega
  have h2 : p.n - 1 - i = 0 := by omega
  simp [restEvents, h1, h2]

theorem sweepEvents_first_plane (p : Params) (f : Frame) (swapped : Bool) (hn : 1 ≤ p.n) (hr : 1 ≤ p.rows) :
    sweepEvents p f swapped = .activateLine 0 :: planeEvents p f 0 0 ++ restEvents p f 0 0 ++ [.sweepComplete swapped] := by
  obtain ⟨m, hm⟩ : ∃ m, p.rows = m + 1 := ⟨p.rows - 1, by omega⟩
  simp [sweepEvents, restEvents, hm, List.range_eq_range', List.range'_succ, lineEvents_first_plane _ _ _ hn]

end Sys2Proof.Machine
end

