-- ==== Sys2Proof/Tests/Slice0.lean ====
section
/-! SUPPORT. Tests of the model against words and vectors of the spec (95_test_vectors.md), the smoke test of WellFormed,
and for each obligation with hypotheses a state and operands that meet them all. Expected values are the spec's. -/

namespace Sys2Proof.Tests

open Sys2Proof Sys2Proof.Machine

/-! ## Helpers -/

/-- The operation completes, and its next state is as said. -/
def completes (o : Out) (f : State → Bool) : Bool :=
  match o with
  | .next s => f s
  | .fault _ => false
  | .refused _ => false

/-- The value a read returns. -/
def reads (o : Out) (v : Word) : Bool := completes o fun t => t.rdata == v

/-- The decoder reads a 37-bit word, in the table's numbering, as this operation. -/
def busReads (w : Nat) (i : Instr) : Bool := decodeTableWord 37 w == some i && encode Params.reference i == ⟨.bus, 37, w⟩

/-- The decoder reads a code of another format as this operation, and the encoder gives the code back. -/
def codeReads (f : Format) (n w : Nat) (i : Instr) : Bool :=
  (match decode Params.reference ⟨f, n, w⟩ with
    | .ok j => j == i
    | .error _ => false) && encode Params.reference i == ⟨f, n, w⟩

/-- Line `y` holds the values 0 to 7 (vector S2a). -/
def gradient (y : Nat) : Frame := [1, 2, 3, 4, 5, 6, 7].map fun x => (y * 65536 + x, BitVec.ofNat 16 x)

/-- Started, before the first tick (H8). -/
def started : State := { State.reset with hwLines := 8, run := true }

/-- In a sweep: line 2, plane 1, last tick of its hold, line 2 being the gradient (T5). -/
def sweeping : State :=
  { started with phase := .sweepPlane, line := 2, plane := 1, hold := 1, rowEn := 4, colOut := 0xCC, fb0 := gradient 2 }

/-- The last tick of a sweep on dark buffers, the next frame in `FB[1]` (T7, T8). -/
def lastTick (req : Bool) : State :=
  { started with
    phase := .sweepPlane, line := 7, plane := 3, hold := 1, rowEn := 0x80, swapReq := req, fb1 := gradient 0 }

/-- Before the fatal write of X1: `FB[1][0][0] = 5`, plane 2 shown. -/
def beforeFatal : State :=
  { started with
    phase := .sweepPlane, plane := 2, hold := 4, rowEn := 1, colOut := 1, sweepDone := true, rsel := true, ie := true
    fb1 := [(0, 5)] }

/-- After X1. -/
def haltedState : State := halt 2 8 beforeFatal

/-- `STATUS = 0x6D` (H4 to H6). -/
def flagged : State := { started with sweepDone := true, rsel := true, wdrop := true, cmderr := true }

/-! ## WellFormed refuses each ill-formed operand (reference configuration) -/

theorem test_wf_reserved_command : (Instr.cmdReserved 1).wf Params.reference = false := by decide
theorem test_wf_line : (Instr.evtActivateLine 8).wf Params.reference = false := by decide
theorem test_wf_plane_vector : (Instr.evtShiftOutPlane 256).wf Params.reference = false := by decide
theorem test_wf_wait_zero : (Instr.evtWaitTicks 0).wf Params.reference = false := by decide
theorem test_wf_wait_long : (Instr.evtWaitTicks 9).wf Params.reference = false := by decide
theorem test_wf_cause : (Instr.evtHalted 1).wf Params.reference = false := by decide
theorem test_wf_plane_bit : (Instr.encPlaneBit 4 0).wf Params.reference = false := by decide
theorem test_wf_plane_row_plane : (Instr.encPlaneRow 4 0).wf Params.reference = false := by decide
theorem test_wf_plane_row_line : (Instr.encPlaneRow 0 8).wf Params.reference = false := by decide
theorem test_wf_accepts : (Instr.evtWaitTicks 8).wf Params.reference && (Instr.evtActivateLine 7).wf Params.reference = true := by
  decide

/-- The decoder refuses such operands too. -/
theorem test_decode_refuses_operands :
    decode Params.reference ⟨.evt, 19, 0x10008⟩ = .error .operandOutOfRange ∧
    decode Params.reference ⟨.enc, 21, 0x040000⟩ = .error .operandOutOfRange := by decide

/-! ## Every constructor's decoding, by a word written out from 30_encoding.md -/

theorem test_words_ctrl_status : busReads 0x10FFFFFFFF (.wrCtrl 0xFFFFFFFF) && busReads 0x0000000000 .rdCtrl &&
    busReads 0x1100000021 (.wrStatus 0x21) && busReads 0x0100000000 .rdStatus = true := by decide

theorem test_words_commands : busReads 0x1200000000 .cmdNop && busReads 0x1200000001 .cmdStart &&
    busReads 0x1200000002 .cmdSwapRequest && busReads 0x1200000003 (.cmdReserved 3) &&
    busReads 0x1200000101 (.cmdReserved 0x101) && busReads 0x12FFFFFFFF (.cmdReserved 0xFFFFFFFF) &&
    busReads 0x0200000000 .rdCmd = true := by decide

theorem test_words_cells : busReads 0x1300070007 (.wrCellAddr 0x00070007) && busReads 0x0300000000 .rdCellAddr &&
    busReads 0x140000001F (.wrCellData 0x1F) && busReads 0x0400000000 .rdCellData = true := by decide

theorem test_words_constants : busReads 0x1500000000 (.wrMissCnt 0) && busReads 0x0500000000 .rdMissCnt &&
    busReads 0x1600100010 (.wrGeom 0x00100010) && busReads 0x0600000000 .rdGeom && busReads 0x1700000001 (.wrDepth 1) &&
    busReads 0x0700000000 .rdDepth && busReads 0x1800000002 (.wrTunit 2) && busReads 0x0800000000 .rdTunit = true := by
  decide

theorem test_words_lines_position : busReads 0x19DEADBEEF (.wrHwLines 0xDEADBEEF) && busReads 0x0900000000 .rdHwLines &&
    busReads 0x1A00000001 (.wrScanpos 1) && busReads 0x0A00000000 .rdScanpos && busReads 0x1B00000001 (.wrHold 1) &&
    busReads 0x0B00000000 .rdHold && busReads 0x1C00000008 (.wrFaultval 8) && busReads 0x0C00000000 .rdFaultval = true := by
  decide

theorem test_words_unmapped : busReads 0x1D00001234 (.wrRsv13 0x1234) && busReads 0x0D00000000 .rdRsv13 &&
    busReads 0x1E00000001 (.wrRsv14 1) && busReads 0x0E00000000 .rdRsv14 && busReads 0x1F00000001 (.wrRsv15 1) &&
    busReads 0x0F00000000 .rdRsv15 = true := by decide

theorem test_words_events : codeReads .evt 3 0b000 .evtDeactivateLines &&
    codeReads .evt 19 0b0010000000000000111 (.evtActivateLine 7) && codeReads .evt 11 0b01011001100 (.evtShiftOutPlane 0xCC) &&
    codeReads .evt 35 0b01100000000000000000000000000001000 (.evtWaitTicks 8) &&
    codeReads .evt 4 0b1001 (.evtSweepComplete true) && codeReads .evt 5 0b10110 (.evtHalted 2) = true := by decide

theorem test_words_transitions : codeReads .fsm 7 0b0000000 .fsmIdleStay && codeReads .fsm 7 0b0000011 .fsmBeginSweep &&
    codeReads .fsm 7 0b0010010 .fsmHold && codeReads .fsm 7 0b0010011 .fsmNextPlane &&
    codeReads .fsm 7 0b0010100 .fsmLineDone && codeReads .fsm 7 0b0100011 .fsmNextLine &&
    codeReads .fsm 7 0b0100110 .fsmLastLine && codeReads .fsm 7 0b0110000 .fsmSweepEnd &&
    codeReads .fsm 7 0b1001000 .fsmHaltStay && codeReads .fsm 7 0b0001000 .fsmFatalIdle &&
    codeReads .fsm 7 0b0011000 .fsmFatalSweep = true := by decide

theorem test_words_encoder : codeReads .enc 21 0b000110000000000001010 (.encPlaneBit 3 10) &&
    codeReads .enc 21 0b100100000000000000111 (.encPlaneRow 2 7) = true := by decide

/-- The ignored wdata of a read (R90) and the value bits a table row gives nothing for. -/
theorem test_word_read_ignores_wdata : decodeTableWord 37 0x01DEADBEEF = some .rdStatus := by decide

/-- A placed code is what the next step runs. -/
theorem test_placed_code_runs : completes (step (State.reset.withFetchWord 37 0x1900000008)) (fun t => t.hwLines == 8) &&
    completes (step (State.reset.withFetchWord 7 0b0000011)) (fun t => t.phase == .sweepPlane) &&
    completes (step (State.reset.withFetchWord 7 0b0011000)) (fun t => t.phase == .halt) = true := by decide

/-! ## The host's transactions (vectors H1 to H39) -/

theorem test_wr_ctrl : completes (exec (.wrCtrl 0xFFFFFFFF) State.reset) (fun t => t.ie && reads (exec .rdCtrl t) 1) = true := by
  decide
theorem test_wr_status_clears : completes (exec (.wrStatus 0x21) flagged) (fun t => statusWord t == 0x4C) = true := by decide
theorem test_wr_status_ignores : completes (exec (.wrStatus 0xFFFFFF9E) flagged) (· == flagged) = true := by decide
theorem test_rd_status : reads (exec .rdStatus flagged) 0x6D && reads (exec .rdStatus State.reset) 0 = true := by decide
theorem test_nop : completes (exec .cmdNop flagged) (· == flagged) = true := by decide
theorem test_start : completes (exec .cmdStart { State.reset with hwLines := 8 }) (fun t => statusWord t == 0x08 && t.phase == .idle)
    = true := by decide
theorem test_start_halts : completes (exec .cmdStart { State.reset with hwLines := 0x10008 }) (fun t =>
    statusWord t == 0x310 && t.faultVal == 0x10008 && t.trace == [.deactivateLines, .halted 3]) = true := by decide
theorem test_swap_request : completes (exec .cmdSwapRequest started) (fun t => statusWord t == 0x0A) = true := by decide
theorem test_reserved_command : completes (exec (.cmdReserved 0x101) State.reset) (fun t => statusWord t == 0x40) = true := by decide
theorem test_cell_addr : completes (exec (.wrCellAddr 0x00070007) State.reset) (fun t =>
    t.cellX == 7 && t.cellY == 7 && reads (exec .rdCellAddr t) 0x00070007) = true := by decide
theorem test_cell_addr_halts : completes (exec (.wrCellAddr 0x00080000) State.reset) (fun t =>
    statusWord t == 0x210 && t.faultVal == 0x00080000 && t.cellX == 0 && t.cellY == 0) = true := by decide
theorem test_cell_data_wraps : completes (exec (.wrCellData 0xFFFFFFF3) State.reset) (fun t =>
    t.fb1 == [(0, 3)] && t.fb0 == [] && reads (exec .rdCellData t) 3) = true := by decide
theorem test_cell_data_dropped : completes (exec (.wrCellData 9) { State.reset with swapReq := true, fb1 := [(0, 5)] }) (fun t =>
    t.fb1 == [(0, 5)] && t.wdrop && reads (exec .rdCellData t) 5) = true := by decide
theorem test_hw_lines : completes (exec (.wrHwLines 0xDEADBEEF) State.reset) (fun t => reads (exec .rdHwLines t) 0xDEADBEEF)
    = true := by decide
theorem test_rd_scanpos : reads (exec .rdScanpos { sweeping with line := 3, plane := 2 }) 0x01020003 = true := by decide
theorem test_rd_hold : reads (exec .rdHold { sweeping with hold := 3 }) 3 = true := by decide
theorem test_rd_constants : reads (exec .rdGeom State.reset) 0x00080008 && reads (exec .rdDepth State.reset) 4 &&
    reads (exec .rdTunit State.reset) 1 && reads (exec .rdGeom (State.resetWith Params.tiny)) 0x00020002 = true := by decide
theorem test_rd_miss_cnt : reads (exec .rdMissCnt { started with missCnt := 3 }) 3 = true := by decide
theorem test_rd_faultval : reads (exec .rdFaultval haltedState) 8 = true := by decide
theorem test_rd_zero : reads (exec .rdCmd flagged) 0 && reads (exec .rdRsv13 flagged) 0 && reads (exec .rdRsv14 flagged) 0 &&
    reads (exec .rdRsv15 flagged) 0 = true := by decide
theorem test_read_only_writes : completes (exec (.wrMissCnt 0) flagged) (· == flagged) &&
    completes (exec (.wrGeom 0x00100010) flagged) (· == flagged) && completes (exec (.wrDepth 1) flagged) (· == flagged) &&
    completes (exec (.wrTunit 2) flagged) (· == flagged) && completes (exec (.wrScanpos 1) flagged) (· == flagged) &&
    completes (exec (.wrHold 1) flagged) (· == flagged) && completes (exec (.wrFaultval 1) flagged) (· == flagged) = true := by
  decide
theorem test_unmapped_writes : completes (exec (.wrRsv13 0x1234) flagged) (· == flagged) &&
    completes (exec (.wrRsv14 1) flagged) (· == flagged) && completes (exec (.wrRsv15 1) flagged) (· == flagged) = true := by
  decide
theorem test_halted_ignores_writes : completes (exec (.wrCtrl 0) haltedState) (· == haltedState) &&
    completes (exec (.wrHwLines 1) haltedState) (· == haltedState) && completes (exec .cmdStart haltedState) (· == haltedState) &&
    completes (exec (.cmdReserved 9) haltedState) (· == haltedState) = true := by decide

/-- `SEEK 7, 7` is the word of R90 and R105; one that needs 33 bits is no bus step (W2). -/
theorem test_seek : seek 7 7 = [.word ⟨.bus, 37, 0x1300070007⟩] ∧ seek 65535 65535 = [.word ⟨.bus, 37, 0x13FFFFFFFF⟩] ∧
    step { State.reset with inputs := seek 0 65536 } = .refused (.undecodable .valueTooWide) := ⟨rfl, rfl, rfl⟩

/-! ## The halt, the interrupt and reset (vectors X1 to X9) -/

theorem test_fatal_in_sweep : completes (exec (.wrCellAddr 8) beforeFatal) (fun t =>
    statusWord t == 0x215 && scanposWord t == 0x04020000 && t.rowEn == 0 && t.colOut == 0 && t.hold == 0 && !irq t &&
      t.trace == [.deactivateLines, .halted 2]) = true := by decide
theorem test_irq_rises_and_falls : completes (exec (.wrCtrl 1) { started with sweepDone := true }) (fun t =>
    irq t && completes (exec (.wrStatus 1) t) (fun u => !irq u)) = true := by decide
theorem test_reset_step : completes (step { beforeFatal with inputs := [.reset] }) (· == State.reset) = true := by decide

/-! ## The tick step and its transitions (vectors T1 to T12) -/

theorem test_idle_stay : completes (exec .fsmIdleStay State.reset) (· == State.reset) = true := by decide
theorem test_begin_sweep : completes (exec .fsmBeginSweep started) (fun t =>
    t.phase == .sweepPlane && t.hold == 1 && t.rowEn == 1 && t.colOut == 0 &&
      t.trace == [.activateLine 0, .shiftOutPlane 0, .waitTicks 1]) = true := by decide
theorem test_hold : completes (exec .fsmHold { sweeping with plane := 3, hold := 8 }) (fun t => t.hold == 7) = true := by decide
theorem test_next_plane : completes (exec .fsmNextPlane sweeping) (fun t =>
    t.plane == 2 && t.hold == 4 && t.colOut == 0xF0 && t.rowEn == 4 && t.trace == [.shiftOutPlane 0xF0, .waitTicks 4])
    = true := by decide
theorem test_line_done : completes (exec .fsmLineDone { sweeping with plane := 3 }) (fun t => t.phase == .advanceLine && t.hold == 1)
    = true := by decide
theorem test_next_line : completes (exec .fsmNextLine { sweeping with phase := .advanceLine, plane := 3, fb0 := gradient 3 }) (fun t =>
    t.phase == .sweepPlane && t.line == 3 && t.plane == 0 && t.hold == 1 && t.rowEn == 8 && t.colOut == 0xAA &&
      t.trace == [.activateLine 3, .shiftOutPlane 0xAA, .waitTicks 1]) = true := by decide
theorem test_last_line : completes (exec .fsmLastLine { lastTick true with phase := .advanceLine }) (fun t => t.phase == .sweepComplete)
    = true := by decide
theorem test_sweep_end_saturates : completes (exec .fsmSweepEnd { lastTick false with phase := .sweepComplete, missCnt := 0xFFFFFFFF })
    (fun t => t.missCnt == 0xFFFFFFFF && t.sweepDone && t.phase == .idle) = true := by decide
theorem test_halt_stay : completes (exec .fsmHaltStay haltedState) (· == haltedState) = true := by decide
theorem test_fatal_idle : completes (exec .fsmFatalIdle { State.reset with port := 0x1200000001 }) (fun t =>
    t.err == 3 && t.phase == .halt) = true := by decide
theorem test_fatal_sweep : completes (exec .fsmFatalSweep { beforeFatal with port := 0x1300000008 }) (· == { haltedState with port := 0x1300000008 })
    = true := by decide
theorem test_transition_elsewhere : exec .fsmNextPlane State.reset = .fault .transitionNotEnabled := rfl
theorem test_tick_swaps : completes (tick (lastTick true)) (fun t =>
    t.sweepDone && t.rsel && !t.swapReq && t.missCnt == 0 && t.line == 0 && t.plane == 0 && t.hold == 1 && t.rowEn == 1 &&
      t.colOut == 0xAA && t.trace == [.sweepComplete true, .activateLine 0, .shiftOutPlane 0xAA, .waitTicks 1]) = true := by
  decide
theorem test_tick_misses : completes (tick (lastTick false)) (fun t =>
    t.sweepDone && !t.rsel && t.missCnt == 1 && t.colOut == 0 &&
      t.trace == [.sweepComplete false, .activateLine 0, .shiftOutPlane 0, .waitTicks 1]) = true := by decide

/-! ## Pins and encoder (vectors G1 to G8, E1 to E11) -/

theorem test_activate_line : completes (exec (.evtActivateLine 7) State.reset) (fun t => t.rowEn == 0x80 && t.trace == [.activateLine 7])
    = true := by decide
theorem test_shift_out_plane : completes (exec (.evtShiftOutPlane 0xFF) State.reset) (fun t =>
    t.colOut == 0xFF && t.trace == [.shiftOutPlane 0xFF]) = true := by decide
theorem test_wait_ticks : completes (exec (.evtWaitTicks 8) State.reset) (fun t => t.hold == 8 && t.trace == [.waitTicks 8]) = true := by
  decide
theorem test_longest_hold : holdTicks ⟨1, 1, 16, 65536⟩ 15 = 0x80000000 ∧ holdTicks ⟨1, 1, 3, 5⟩ 2 = 20 := by decide
theorem test_deactivate_lines : completes (exec .evtDeactivateLines beforeFatal) (fun t =>
    t.rowEn == 0 && t.colOut == 0 && t.trace == [.deactivateLines]) = true := by decide
theorem test_sweep_complete_event : completes (exec (.evtSweepComplete true) State.reset) (fun t => t.trace == [.sweepComplete true])
    = true := by decide
theorem test_halted_event : completes (exec (.evtHalted 3) State.reset) (fun t => t.trace == [.halted 3]) = true := by decide
theorem test_plane_bit : completes (exec (.encPlaneBit 1 10) State.reset) (fun t => t.encOut == 1) &&
    completes (exec (.encPlaneBit 2 10) State.reset) (fun t => t.encOut == 0) = true := by decide
theorem test_plane_row : completes (exec (.encPlaneRow 1 2) sweeping) (fun t => t.encOut == 0xCC) &&
    completes (exec (.encPlaneRow 2 2) sweeping) (fun t => t.encOut == 0xF0) = true := by decide

/-! ## Witnesses: for each obligation with hypotheses, a state and operands that meet all of them together -/

theorem witness_ResetStepRestoresEveryItem :
    beforeFatal.cfg.Legal ∧ { beforeFatal with inputs := [.reset, .tick] }.inputs = .reset :: [.tick] := by decide

theorem witness_InvHoldsAfterReset : Params.reference.Legal ∧ Params.tiny.Legal := by decide

/-- Mid-sweep, at the last tick of a sweep, in HALT, and with a transaction to come. -/
theorem witness_StepKeepsInvariants :
    (BlockInv sweeping ∧ ∃ t, step sweeping = .next t) ∧ (BlockInv (lastTick true) ∧ ∃ t, step (lastTick true) = .next t) ∧
    (BlockInv { haltedState with inputs := [wr 2 1] } ∧ ∃ t, step { haltedState with inputs := [wr 2 1] } = .next t) :=
  ⟨⟨by decide, _, rfl⟩, ⟨by decide, _, rfl⟩, ⟨by decide, _, rfl⟩⟩

theorem witness_InvariantStateAlwaysMoves : BlockInv { beforeFatal with inputs := [wr 3 8, .tick, .reset] } := by decide

theorem witness_StepTakesOneEventAndKeepsParameters : ∃ t, step { started with inputs := [rd 1, .tick] } = .next t := ⟨_, rfl⟩

theorem witness_StepRunsDecodedOperation :
    started.cfg.Legal ∧ { started with inputs := [wr 2 2] }.inputs = .word (busCode (busWord true 2 2)) :: [] ∧
      decode started.cfg (busCode (busWord true 2 2)) = .ok .cmdSwapRequest := ⟨by decide, rfl, rfl⟩

theorem witness_TickEventTakesTickStep :
    started.cfg.Legal ∧ { started with inputs := [.tick, .reset] }.inputs = .tick :: [.reset] ∧ started.inputs = [] := by decide

theorem witness_IllegalParametersAndCodesRefused :
    ¬ (Params.mk 0 8 4 1).Legal ∧ ¬ (Params.mk 8 8 17 1).Legal ∧
      (started.cfg.Legal ∧ { started with inputs := [.word ⟨.bus, 36, 0⟩] }.inputs = .word ⟨.bus, 36, 0⟩ :: [] ∧
        decode started.cfg ⟨.bus, 36, 0⟩ = .error .badLength) := ⟨by decide, by decide, by decide, rfl, rfl⟩

theorem witness_DecodeEncodeRoundTrip :
    (Instr.evtWaitTicks 8).wf Params.reference = true ∧ (Instr.evtShiftOutPlane 255).wf Params.reference = true ∧
      (Instr.cmdReserved 0xFFFFFFFF).wf Params.reference = true ∧ (Instr.encPlaneRow 3 7).wf Params.reference = true := by decide

/-- A read with wdata, the last read word, the first and the last write word, and an event. -/
theorem witness_EncodeDecodeIsIdentityUpToIgnoredBits :
    decode Params.reference ⟨.bus, 37, 0x01DEADBEEF⟩ = .ok .rdStatus ∧ decode Params.reference ⟨.bus, 37, 0x0FFFFFFFFF⟩ = .ok .rdRsv15 ∧
      decode Params.reference ⟨.bus, 37, 0x1000000000⟩ = .ok (.wrCtrl 0) ∧
      decode Params.reference ⟨.bus, 37, 0x1FFFFFFFFF⟩ = .ok (.wrRsv15 0xFFFFFFFF) ∧
      decode Params.reference ⟨.evt, 3, 0⟩ = .ok .evtDeactivateLines := ⟨rfl, rfl, rfl, rfl, rfl⟩

/-- Lengths on both sides of each format's, arguments of both neighbouring widths, and a value one too wide. -/
theorem witness_ReservedCodesRefused :
    (3 < 2 ^ 2 ∧ 0 < 2 ^ 0) ∧ (1 < 2 ^ 7 ∧ fsmRows.lookup 1 = none) ∧ (127 < 2 ^ 7 ∧ fsmRows.lookup 127 = none) ∧
      (0 < 2 ^ 36 ∧ 36 ≠ 37) ∧ (0 < 2 ^ 38 ∧ 38 ≠ 37) ∧ (0b0010010 < 2 ^ 8 ∧ 8 ≠ 7) ∧ (5 < 2 ^ 22 ∧ 22 ≠ 21) ∧ (3 < 2 ^ 2 ∧ 2 < 3) ∧
      (1 < 2 ^ 1 ∧ 1 ≠ 0) ∧ (7 < 2 ^ 15 ∧ 15 ≠ 16) ∧ (7 < 2 ^ 9 ∧ 9 ≠ Params.reference.cols) ∧ (7 < 2 ^ 31 ∧ 31 ≠ 32) ∧
      (1 < 2 ^ 2 ∧ 2 ≠ 1) ∧ (1 < 2 ^ 1 ∧ 1 ≠ 2) ∧ 2 ^ (Code.mk .fsm 7 128).len ≤ (Code.mk .fsm 7 128).val := by decide

theorem witness_EncoderRowsSelectBits :
    (3 : BitVec 4).toNat < sweeping.cfg.n ∧ (7 : BitVec 16).toNat < sweeping.cfg.rows := by decide

theorem witness_BitPlanesReconstructTheValue : (15 : Cell).toNat < 2 ^ 4 ∧ (0xFFFF : Cell).toNat < 2 ^ 16 ∧ (0 : Cell).toNat < 2 ^ 0 := by decide

theorem witness_PlaneRowEdgeCases :
    Params.tiny.Legal ∧ 1 < Params.tiny.n ∧ (∀ x, x < Params.tiny.cols → Frame.read [] (cellKey 1 x) = 0) ∧
      (∀ x, x < Params.tiny.cols → (Frame.read [(65536, 3), (65537, 3)] (cellKey 1 x)).toNat = Params.tiny.vMax) := by decide

theorem witness_TickWithoutRunOrInHaltChangesNothing :
    (State.reset.phase = .idle ∧ State.reset.run = false) ∧ haltedState.phase = .halt := by decide

theorem witness_BeginSweepShowsLineZeroPlaneZero : started.cfg.Legal ∧ started.phase = .idle ∧ started.run = true := by decide

/-- The smallest and the largest hold that counts down. -/
theorem witness_HoldCountsDown : ({ sweeping with hold := 2 }.phase = .sweepPlane ∧ 1 < { sweeping with hold := 2 }.hold.toNat) ∧
    1 < { sweeping with hold := 0xFFFFFFFF }.hold.toNat := by decide

theorem witness_ExpiredPlaneGivesNextPlane :
    sweeping.cfg.Legal ∧ sweeping.phase = .sweepPlane ∧ sweeping.hold.toNat = 1 ∧ sweeping.line.toNat < sweeping.cfg.rows ∧
      sweeping.plane.toNat + 1 < sweeping.cfg.n := by decide

theorem witness_LastPlaneAndLastLineEnterTransientPhases :
    ((lastTick true).phase = .sweepPlane ∧ (lastTick true).hold.toNat = 1 ∧ 1 ≤ (lastTick true).cfg.n ∧
      (lastTick true).plane.toNat + 1 = (lastTick true).cfg.n) ∧
    ({ lastTick true with phase := .advanceLine }.phase = .advanceLine ∧ (lastTick true).line.toNat + 1 = (lastTick true).cfg.rows) := by
  decide

theorem witness_AdvanceLineActivatesNextLine :
    sweeping.cfg.Legal ∧ { sweeping with phase := .advanceLine }.phase = .advanceLine ∧ sweeping.line.toNat + 1 < sweeping.cfg.rows := by
  decide

/-- A swap, a miss, and a miss at the saturated count. -/
theorem witness_SweepEndSwapsOrCountsMiss :
    ({ lastTick true with phase := .sweepComplete }.phase = .sweepComplete ∧ (lastTick true).swapReq = true) ∧
      (lastTick false).swapReq = false ∧ min ((0xFFFFFFFF : Word).toNat + 1) 0xFFFFFFFF = 0xFFFFFFFF ∧
      min ((0xFFFFFFFE : Word).toNat + 1) 0xFFFFFFFF = 0xFFFFFFFF := by decide

theorem witness_TickIsChainOfTransitions : BlockInv sweeping ∧ BlockInv (lastTick true) ∧ BlockInv started ∧ BlockInv haltedState :=
  ⟨by decide, by decide, by decide, by decide⟩

/-- One transition that loads a plane, one that does not, and one into HALT. -/
theorem witness_TransitionCodesNameTheirPhases :
    ((encode Params.reference .fsmNextPlane).fmt = .fsm ∧ (encode Params.reference .fsmNextPlane).val % 2 = 1 ∧
      ∃ t, exec .fsmNextPlane sweeping = .next t) ∧
    ((encode Params.reference .fsmLineDone).fmt = .fsm ∧ (encode Params.reference .fsmLineDone).val % 2 = 0 ∧
      ∃ t, exec .fsmLineDone (lastTick true) = .next t) ∧
    ∃ t, exec .fsmFatalSweep { beforeFatal with port := 0x1300000008 } = .next t :=
  ⟨⟨rfl, rfl, _, rfl⟩, ⟨rfl, rfl, _, rfl⟩, _, rfl⟩

/-- A wrong phase; then legal states in the right phase of which the condition fails, and two of which it holds. -/
theorem witness_TransitionOutsideItsPhaseIsNoMove :
    ((encode Params.reference .fsmHold).fmt = .fsm ∧ (encode Params.reference .fsmHold).val / 16 ≠ phaseCode State.reset.phase) ∧
    (started.cfg.Legal ∧ ¬ (started.phase = .idle ∧ started.run = false)) ∧
    (sweeping.cfg.Legal ∧ sweeping.phase = .sweepPlane ∧ ¬ 1 < sweeping.hold.toNat) ∧
    ((lastTick true).cfg.Legal ∧ (lastTick true).phase = .sweepPlane ∧ ¬ (lastTick true).plane.toNat + 1 < (lastTick true).cfg.n) ∧
    (sweeping.port ≠ busWord true 2 1 ∧ ∀ v : Word, sweeping.port ≠ busWord true 3 v) ∧
    ((0x1300000008 : BusWord) = busWord true 3 8 ∧ sweeping.cfg.cols ≤ (8 : Word).toNat % 2 ^ 16) :=
  ⟨by decide, by decide, by decide, by decide, ⟨by decide, fun v h => absurd (congrArg busIndex h) (by rw [busIndex_busWord]; decide)⟩, by decide⟩

/-- A bad coordinate in a sweep and in IDLE, and a START with a wrong line count. -/
theorem witness_FatalTransitionsHalt :
    ({ beforeFatal with port := 0x1300000008 }.port = busWord true 3 8 ∧ beforeFatal.cfg.cols ≤ (8 : Word).toNat % 2 ^ 16 ∧
      beforeFatal.phase = .sweepPlane) ∧
    ({ State.reset with port := 0x1300080000 }.port = busWord true 3 0x80000 ∧
      State.reset.cfg.rows ≤ (0x80000 : Word).toNat / 2 ^ 16 ∧ State.reset.phase = .idle) ∧
    ({ State.reset with port := 0x1200000001 }.port = busWord true 2 1 ∧ State.reset.run = false ∧
      State.reset.hwLines ≠ BitVec.ofNat 32 State.reset.cfg.rows) := by decide

/-- A sweep of the tiny configuration has begun. -/
def tinySweep : State :=
  { State.resetWith Params.tiny with phase := .sweepPlane, hold := 1, rowEn := 1, run := true, hwLines := 2, fb1 := [(1, 1)] }

/-- A request, reads, a dropped store and a flag clear between the ticks of a whole sweep. -/
def busySchedule : List Input := [wr 2 2, .tick, rd 1, .tick, wr 4 1, .tick, .tick, wr 1 4, .tick, .tick]

/-- The tiny configuration's sweep of 6 ticks with a busy host, at its second, its fifth and its last tick; and with a silent host. -/
theorem witness_SweepTakesExactlyItsPeriod :
    let s := { tinySweep with inputs := busySchedule }
    BlockInv s ∧ sweepStart s ∧ noReset 10 s.inputs ∧ (ticksIn 4 s.inputs = 2 ∧ 0 < 2 ∧ 2 < s.cfg.tSweep) ∧
      ticksIn 10 s.inputs = s.cfg.tSweep ∧ ticksIn 9 s.inputs + 1 = s.cfg.tSweep ∧
      (∃ t, Host.Core.run Sys2Proof.core 9 s = .next t ∧ t.phase ≠ .halt ∧ nextEvent t.inputs = .tick) ∧
      (∃ t, Host.Core.run Sys2Proof.core 10 s = .next t ∧ t.phase ≠ .halt) ∧
      BlockInv tinySweep ∧ sweepStart tinySweep ∧ ticksOnly 6 tinySweep.inputs ∧ ticksIn 6 tinySweep.inputs = tinySweep.cfg.tSweep :=
  ⟨by decide, by decide, by decide, by decide, by decide, by decide, ⟨_, rfl, by decide, rfl⟩, ⟨_, rfl, by decide⟩, by decide, by decide,
    by decide, by decide⟩

/-- A tick in a sweep, its last tick, and a transaction. -/
theorem witness_EachStepKeepsTheSweepCountdown :
    (BlockInv tinySweep ∧ tinySweep.phase = .sweepPlane ∧ nextEvent tinySweep.inputs = .tick ∧ 1 < ticksLeft tinySweep) ∧
    (BlockInv (lastTick true) ∧ (lastTick true).phase = .sweepPlane ∧ nextEvent (lastTick true).inputs = .tick ∧
      ticksLeft (lastTick true) = 1) ∧
    (BlockInv { tinySweep with inputs := busySchedule } ∧ nextEvent busySchedule ≠ .reset ∧ nextEvent busySchedule ≠ .tick) :=
  ⟨by decide, by decide, by decide⟩

/-- A started block of the tiny configuration, with a busy and with a silent host. -/
theorem witness_SweepLeavesItsTrace :
    let s := { State.resetWith Params.tiny with run := true, hwLines := 2, inputs := .tick :: busySchedule }
    (BlockInv s ∧ s.phase = .idle ∧ s.run = true ∧ noReset 11 s.inputs ∧ ticksIn 11 s.inputs = 1 + s.cfg.tSweep ∧
      ∃ t, Host.Core.run Sys2Proof.core 11 s = .next t ∧ t.phase ≠ .halt) ∧
    (BlockInv { s with inputs := [] } ∧ ticksOnly 7 [] ∧ ticksIn 7 [] = 1 + s.cfg.tSweep) :=
  ⟨⟨by decide, rfl, rfl, by decide, by decide, _, rfl, by decide⟩, by decide, by decide, by decide⟩

theorem witness_WaitsOfASweepSumToItsPeriod : Params.tiny.Legal ∧ (Params.mk 1 1 16 1).Legal ∧ (Params.mk 1 1 1 0xFFFFFFFF).Legal := by
  decide

theorem witness_LitTimeIsLinearInTheCellValue :
    let s := { tinySweep with inputs := busySchedule }
    BlockInv s ∧ sweepStart s ∧ 1 < s.cfg.rows ∧ 1 < s.cfg.cols ∧ noReset 10 s.inputs ∧ ticksIn 10 s.inputs = s.cfg.tSweep ∧
      ticksOnly 6 tinySweep.inputs ∧ ∃ t, Host.Core.run Sys2Proof.core 10 s = .next t ∧ t.phase ≠ .halt :=
  ⟨by decide, by decide, by decide, by decide, by decide, by decide, by decide, _, rfl, by decide⟩

/-- Two states in a sweep that differ in what the host wrote, RUN and the request included; and two at the end of a sweep, with a request
pending in both. -/
theorem witness_TickIgnoresWhatTheHostWrites :
    let s := { sweeping with ie := true, cellX := 3, hwLines := 5, swapReq := true, run := false, fb1 := gradient 1 }
    let a := lastTick true
    let b := { lastTick true with ie := true, cellX := 3, hwLines := 5 }
    (sweeping.cfg = s.cfg ∧ sweeping.phase = s.phase ∧ sweeping.line = s.line ∧ sweeping.plane = s.plane ∧ sweeping.hold = s.hold ∧
      sweeping.rowEn = s.rowEn ∧ sweeping.colOut = s.colOut ∧ sweeping.rsel = s.rsel ∧
      buffer sweeping sweeping.rsel = buffer s s.rsel ∧ (sweeping.phase = .idle → sweeping.run = s.run) ∧
      ¬ (sweeping.hold.toNat ≤ 1 ∧ sweeping.cfg.n ≤ sweeping.plane.toNat + 1 ∧ sweeping.cfg.rows ≤ sweeping.line.toNat + 1) ∧
      (∃ t₁, tick sweeping = .next t₁) ∧ ∃ t₂, tick s = .next t₂) ∧
    (a.cfg = b.cfg ∧ a.phase = b.phase ∧ a.line = b.line ∧ a.plane = b.plane ∧ a.hold = b.hold ∧ a.rowEn = b.rowEn ∧
      a.colOut = b.colOut ∧ a.rsel = b.rsel ∧ buffer a a.rsel = buffer b b.rsel ∧ a.run = b.run ∧
      a.phase = .sweepPlane ∧ a.hold.toNat ≤ 1 ∧ a.cfg.n ≤ a.plane.toNat + 1 ∧ a.cfg.rows ≤ a.line.toNat + 1 ∧
      a.swapReq = b.swapReq ∧ a.swapReq = true ∧ buffer a (!a.rsel) = buffer b (!b.rsel) ∧
      (∃ t₁, tick a = .next t₁) ∧ ∃ t₂, tick b = .next t₂) :=
  ⟨⟨rfl, rfl, rfl, rfl, rfl, rfl, rfl, rfl, rfl, by decide, by decide, ⟨_, rfl⟩, ⟨_, rfl⟩⟩,
    rfl, rfl, rfl, rfl, rfl, rfl, rfl, rfl, rfl, rfl, rfl, by decide, by decide, by decide, rfl, rfl, rfl, ⟨_, rfl⟩, ⟨_, rfl⟩⟩

/-- The step that swaps, and a step that keeps the request. -/
theorem witness_RolesChangeOnlyAtSweepEnd :
    (BlockInv (lastTick true) ∧ (lastTick true).inputs.head? ≠ some .reset ∧
      ∃ t, step (lastTick true) = .next t ∧ t.rsel ≠ (lastTick true).rsel) ∧
    (BlockInv { sweeping with swapReq := true } ∧ ∃ t, step { sweeping with swapReq := true } = .next t ∧ t.swapReq = true) :=
  ⟨⟨by decide, by decide, _, rfl, by decide⟩, ⟨by decide, _, rfl, rfl⟩⟩

/-- A request pending in a sweep with a busy host, and in a started block still in IDLE. -/
theorem witness_PendingRequestIsServedWithinASweep :
    let s := { tinySweep with swapReq := true, inputs := busySchedule }
    let i := { State.resetWith Params.tiny with run := true, swapReq := true, hwLines := 2 }
    (BlockInv s ∧ s.run = true ∧ s.swapReq = true ∧ s.phase ≠ .idle ∧ noReset 10 s.inputs ∧ 0 + s.cfg.tSweep ≤ ticksIn 10 s.inputs ∧
      ∃ t, Host.Core.run Sys2Proof.core 10 s = .next t ∧ t.phase ≠ .halt) ∧
    (BlockInv i ∧ i.run = true ∧ i.swapReq = true ∧ i.phase = .idle ∧ noReset 7 i.inputs ∧ ticksOnly 7 i.inputs ∧
      1 + i.cfg.tSweep ≤ ticksIn 7 i.inputs) :=
  ⟨⟨by decide, rfl, rfl, by decide, by decide, by decide, _, rfl, by decide⟩, by decide, rfl, rfl, rfl, by decide, by decide, by decide⟩

theorem witness_InterruptLineIsALevel : { lastTick true with phase := .sweepComplete, ie := true }.phase = .sweepComplete := by decide

theorem witness_PinOperationsSetPinsAndEmit :
    (7 : BitVec 16).toNat < State.reset.cfg.rows ∧ 255 < 2 ^ State.reset.cfg.cols ∧
      (1 ≤ (1 : BitVec 32).toNat ∧ (8 : BitVec 32).toNat ≤ State.reset.cfg.holdMax) ∧ 2 ≤ (2 : BitVec 2).toNat := by decide

theorem witness_OperandOutOfRangeIsNoMove :
    ((encode State.reset.cfg (.evtActivateLine 8)).fmt = .evt ∧ (Instr.evtActivateLine 8).wf State.reset.cfg = false) ∧
      ((encode State.reset.cfg (.encPlaneBit 3 0)).fmt = .enc ∧ (Instr.encPlaneBit 3 0).wf State.reset.cfg = true) := by decide

theorem witness_ReadsHaveNoSideEffect :
    busWe (busWord false 4 0xFFFFFFFF) = false ∧ pointerInRange { sweeping with cellX := 7, cellY := 7 } ∧ pointerInRange haltedState := by
  decide

theorem witness_ConstantReadsShowTheParameters : State.reset.cfg.Legal ∧ (Params.mk 65535 65535 16 1).Legal := by decide

theorem witness_CellDataReadReturnsWriteSideCell : pointerInRange { sweeping with cellX := 7, cellY := 7, swapReq := true } := by decide

theorem witness_HaltIgnoresEveryWrite : busWe (busWord true 9 1) = true ∧ haltedState.phase = .halt := by decide

theorem witness_CtrlWriteSetsInterruptEnable : flagged.phase ≠ .halt := by decide
theorem witness_StatusWriteClearsWrittenOnes : flagged.phase ≠ .halt ∧ (0x61 : Word).getLsbD 0 = true := by decide
theorem witness_HwLinesWriteStoresTheWord : sweeping.phase ≠ .halt := by decide
theorem witness_SwapRequestAndReservedCommand : sweeping.phase ≠ .halt ∧ 2 < (3 : Word).toNat ∧ 2 < (0xFFFFFFFF : Word).toNat := by decide

/-- Halted; running; a right count; a count wrong in its upper half only. -/
theorem witness_StartChecksTheLineCount :
    haltedState.phase = .halt ∧
    (flagged.cfg.Legal ∧ flagged.phase ≠ .halt ∧ flagged.run = true) ∧
      ({ flagged with run := false }.hwLines.toNat = flagged.cfg.rows) ∧
      ({ flagged with run := false, hwLines := 0x10008 }.hwLines.toNat ≠ flagged.cfg.rows) := by decide

/-- The last legal coordinates, and the first illegal column and line. -/
theorem witness_CellAddrWriteChecksTheCoordinate :
    sweeping.phase ≠ .halt ∧
      ((0x70007 : Word).toNat % 2 ^ 16 < sweeping.cfg.cols ∧ (0x70007 : Word).toNat / 2 ^ 16 < sweeping.cfg.rows) ∧
      ¬ (0x70008 : Word).toNat % 2 ^ 16 < sweeping.cfg.cols ∧ ¬ (0x80007 : Word).toNat / 2 ^ 16 < sweeping.cfg.rows := by decide

/-- With a request pending, and without one on either role of the buffers. -/
theorem witness_StoreWritesOneWriteSideCellOrIsDropped :
    ((lastTick true).phase ≠ .halt ∧ (lastTick true).swapReq = true) ∧
    (sweeping.cfg.Legal ∧ sweeping.phase ≠ .halt ∧ sweeping.swapReq = false ∧ pointerInRange sweeping ∧
      Frame.wf (if sweeping.rsel then sweeping.fb0 else sweeping.fb1) = true) ∧
    (beforeFatal.cfg.Legal ∧ beforeFatal.phase ≠ .halt ∧ beforeFatal.swapReq = false ∧ pointerInRange beforeFatal ∧
      Frame.wf (if beforeFatal.rsel then beforeFatal.fb0 else beforeFatal.fb1) = true) := by decide

theorem witness_LoadReturnsWhatWasStored :
    flagged.cfg.Legal ∧ flagged.phase ≠ .halt ∧ flagged.swapReq = false ∧ pointerInRange flagged ∧
      Frame.wf (if flagged.rsel then flagged.fb0 else flagged.fb1) = true := by decide

theorem witness_CellAccessOutsideGeometryFaults :
    ¬ pointerInRange { started with cellX := 8 } ∧ { started with cellX := 8 }.phase ≠ .halt ∧
      { started with cellX := 8 }.swapReq = false := by decide

/-- A transaction that stores, and one that halts. -/
theorem witness_BusStepKeepsTheScanSide :
    (∃ t, exec (decodeBus (busWord true 4 9)) sweeping = .next t) ∧
      ∃ t, exec (decodeBus (busWord true 3 8)) beforeFatal = .next t ∧ t.phase = .halt := ⟨⟨_, rfl⟩, _, rfl, rfl⟩

theorem witness_OnlyResetLeavesHalt :
    BlockInv { haltedState with inputs := [wr 2 1] } ∧ haltedState.phase = .halt ∧
      { haltedState with inputs := [wr 2 1] }.inputs.head? ≠ some .reset := by decide

end Sys2Proof.Tests
end

/-! # Proofs for 00_scope.md: what one step takes from the schedule, and what it never writes

Every operation keeps the parameters and the events still to arrive (70_reset_and_hazards.md R283); `takeStep` alone takes an
event off the schedule. The split follows the decoder: a bus transaction by `decodeBus_effect`, the other formats row by row. -/

namespace Sys2Proof.Machine

/-- Where the operation completes from `s`, the parameters and the schedule are those of `s`. -/
def KeepsSetup (s : State) (o : Out) : Prop :=
  ∀ t, o = .next t → t.cfg = s.cfg ∧ t.inputs = s.inputs

/-! ## The shared operations -/

theorem keepsSetup_next {s u : State} (hc : u.cfg = s.cfg) (hi : u.inputs = s.inputs) : KeepsSetup s (.next u) := by
  rintro t ⟨⟩
  exact ⟨hc, hi⟩

theorem keepsSetup_fault (s : State) (r : Fault) : KeepsSetup s (.fault r) := nofun

theorem keepsSetup_refused (s : State) (r : Refusal) : KeepsSetup s (.refused r) := nofun

theorem keepsSetup_transition {s : State} {o : Out} (b : Bool) (h : KeepsSetup s o) : KeepsSetup s (transition b o) :=
  fun t ht => h t (transition_eq_next.mp ht).2

theorem keepsSetup_inRange {s : State} {o : Out} (b : Bool) (h : KeepsSetup s o) : KeepsSetup s (inRange b o) :=
  fun t ht => h t (inRange_eq_next.mp ht).2

/-- A plane load writes pins and TRACE only (41_scan_fsm.md R144). -/
theorem keepsSetup_loadPlane {s u : State} (hc : u.cfg = s.cfg) (hi : u.inputs = s.inputs) : KeepsSetup s (loadPlane u) := by
  intro t ht
  obtain ⟨-, rfl⟩ := loadPlane_eq_next.mp ht
  exact ⟨hc, hi⟩

theorem keepsSetup_haltFromPort (s : State) : KeepsSetup s (haltFromPort s) := by
  unfold haltFromPort
  split
  · exact keepsSetup_next rfl rfl
  · exact keepsSetup_fault s _

/-! ## The tick step -/

theorem keepsSetup_tick (s : State) : KeepsSetup s (tick s) := by
  intro t h
  rcases tick_cases h with ⟨-, rfl⟩ | ⟨-, -, rfl⟩ | ⟨-, -, rfl⟩ | ⟨-, -, rfl⟩ | ⟨-, -, -, rfl⟩ | ⟨-, -, -, -, rfl⟩ |
    ⟨-, -, -, -, rfl⟩ <;> simp

/-! ## The decoded operations, format by format -/

theorem BusEffect.keepsSetup {s t : State} (h : BusEffect s t) : t.cfg = s.cfg ∧ t.inputs = s.inputs := by
  cases h with
  | store => simp
  | _ => exact ⟨rfl, rfl⟩

theorem keepsSetup_decodeBus (w : BusWord) (s : State) : KeepsSetup s (exec (decodeBus w) s) :=
  fun _ h => (decodeBus_effect h).keepsSetup

/-- A code the FSM decoder reads is a row of its table (30_encoding.md R101). -/
theorem mem_fsmRows_of_decodeFsm {v : Nat} {i : Instr} (h : decodeFsm v = .ok i) : i ∈ fsmRows.map Prod.snd := by
  unfold decodeFsm at h
  split at h
  · rename_i hv
    cases h
    obtain ⟨_, _, hrows, -⟩ := List.lookup_eq_some_iff.mp hv
    simp [hrows]
  · cases h

/-- The eleven transitions, in the order of the table. -/
theorem keepsSetup_fsmRows (s : State) : ∀ i ∈ fsmRows.map Prod.snd, KeepsSetup s (exec i s) := by
  simp only [fsmRows, List.map_cons, List.map_nil, List.forall_mem_cons]
  have hnext {b : Bool} {u : State} (hc : u.cfg = s.cfg) (hi : u.inputs = s.inputs) :
      KeepsSetup s (transition b (.next u)) := keepsSetup_transition b (keepsSetup_next hc hi)
  have hload {b : Bool} {u : State} (hc : u.cfg = s.cfg) (hi : u.inputs = s.inputs) :
      KeepsSetup s (transition b (loadPlane u)) := keepsSetup_transition b (keepsSetup_loadPlane hc hi)
  have hfatal {b : Bool} : KeepsSetup s (transition b (haltFromPort s)) :=
    keepsSetup_transition b (keepsSetup_haltFromPort s)
  exact ⟨hnext rfl rfl, hload rfl rfl, hnext rfl rfl, hload rfl rfl, hnext rfl rfl, hload rfl rfl, hnext rfl rfl,
    hnext (endSweep_cfg s) (endSweep_inputs s), hnext rfl rfl, hfatal, hfatal, List.forall_mem_nil _⟩

theorem keepsSetup_of_decodeEvt {p : Params} {w tag arg : Nat} {i : Instr} (h : decodeEvt p w tag arg = .ok i) (s : State) :
    KeepsSetup s (exec i s) := by
  have hevent {b : Bool} {u : State} (hc : u.cfg = s.cfg) (hi : u.inputs = s.inputs) :
      KeepsSetup s (inRange b (.next u)) := keepsSetup_inRange b (keepsSetup_next hc hi)
  unfold decodeEvt at h
  split at h
  case h_7 => cases h
  all_goals
    split_ifs at h
    cases h
  · exact keepsSetup_next rfl rfl
  · exact hevent rfl rfl
  · exact hevent rfl rfl
  · exact hevent rfl rfl
  · exact keepsSetup_next rfl rfl
  · exact hevent rfl rfl

theorem keepsSetup_decodeEnc (v : Nat) (s : State) : KeepsSetup s (exec (decodeEnc v) s) := by
  unfold decodeEnc
  split
  · exact keepsSetup_inRange _ (keepsSetup_next rfl rfl)
  · exact keepsSetup_inRange _ (keepsSetup_next rfl rfl)

/-- The range check of the decoder rejects operations and changes none. -/
theorem decodeFields_of_decode {p : Params} {c : Code} {i : Instr} (h : decode p c = .ok i) : decodeFields p c = .ok i := by
  unfold decode at h
  split_ifs at h
  split at h
  · split_ifs at h
    cases h
    assumption
  · cases h

theorem keepsSetup_of_decode {p : Params} {c : Code} {i : Instr} (h : decode p c = .ok i) (s : State) :
    KeepsSetup s (exec i s) := by
  replace h := decodeFields_of_decode h
  unfold decodeFields at h
  split at h <;> split_ifs at h
  · cases h
    exact keepsSetup_decodeBus _ s
  · exact keepsSetup_fsmRows s i (mem_fsmRows_of_decodeFsm h)
  · cases h
    exact keepsSetup_decodeEnc _ s
  · exact keepsSetup_of_decodeEvt h s

/-! ## One event of the schedule -/

/-- The pins of the port while the step of a code is taken (10_state.md R54). -/
theorem onPort_eq (c : Code) (s : State) :
    onPort c s = { s with port := if c.fmt = .bus then BitVec.ofNat 37 c.val else s.port } := by
  unfold onPort
  split <;> rfl

theorem runCode_of_decode {c : Code} {s : State} {i : Instr} (h : decode s.cfg c = .ok i) :
    runCode c s = exec i (onPort c s) := by
  simp only [runCode, h]

theorem keepsSetup_runCode (c : Code) (s : State) : KeepsSetup s (runCode c s) := by
  unfold runCode
  split
  · rename_i i hi
    have hexec := keepsSetup_of_decode hi (onPort c s)
    rwa [onPort_eq] at hexec ⊢
  · exact keepsSetup_refused s _

theorem keepsSetup_arrive (e : Input) (s : State) : KeepsSetup s (arrive e s) := by
  cases e with
  | tick => exact keepsSetup_tick s
  | reset => exact keepsSetup_next rfl rfl
  | word c => exact keepsSetup_runCode c s

/-- Outside the legal parameters there is no step (93_implementation_defined.md W1). -/
theorem legal_of_step {s t : State} (h : step s = .next t) : s.cfg.Legal := by
  by_contra hc
  rw [step, takeStep, if_neg hc] at h
  cases h

/-! ## The obligations -/

/-- Settles O5, by the event the step takes: `step_cons` and `step_nil` say what becomes of the schedule, and the
operation run then keeps it. -/
theorem stepTakesOneEventAndKeepsParameters : Obligations.StepTakesOneEventAndKeepsParameters := by
  intro s t h
  have hc := legal_of_step h
  cases hin : s.inputs with
  | nil =>
    rw [step_nil hc hin] at h
    simpa [hin] using keepsSetup_tick s t h
  | cons e rest =>
    rw [step_cons hc hin] at h
    exact keepsSetup_arrive e _ t h

/-- Settles O6: the step of a scheduled code is `runCode`, which runs what the decoder reads with the word on the port. -/
theorem stepRunsDecodedOperation : Obligations.StepRunsDecodedOperation := by
  intro s c rest i hc hin hdec
  calc step s = runCode c { s with inputs := rest } := step_cons hc hin
    _ = exec i (onPort c { s with inputs := rest }) := runCode_of_decode hdec
    _ = _ := by rw [onPort_eq]

/-- Settles O7, its two clauses being the two ways a tick comes. -/
theorem tickEventTakesTickStep : Obligations.TickEventTakesTickStep :=
  ⟨fun _ _ => step_cons, fun _ => step_nil⟩

end Sys2Proof.Machine

/-! # Proofs for 10_state.md: every step keeps the invariants

The invariants of R30 fall into those on what the scan engine never writes (`HostInv`) and those on the scan position and the pins.
A plane load establishes the second kind anew, so every tick that loads a plane is one lemma (`blockInv_loadPlaneAt`). A bus step is split by its
effect (`BusEffect`), and only four effects touch an item that R30 speaks of. -/

namespace Sys2Proof.Machine

/-- The invariants on what the scan engine never writes: I6, I7, the parameters and the schedule. -/
structure HostInv (s : State) : Prop where
  legal : s.cfg.Legal
  schedule : realSchedule s = true
  pointer : pointerInRange s
  buffers : buffersFit s

/-! ## The invariant and its parts -/

theorem BlockInv.host {s : State} (h : BlockInv s) : HostInv s := by
  obtain ⟨hc, hi, -, -, -, -, -, hp, hb⟩ := h
  exact ⟨hc, hi, hp, hb⟩

theorem BlockInv.scan {s : State} (h : BlockInv s) : scanInRange s := by
  obtain ⟨-, -, -, hscan, -⟩ := h
  exact hscan

theorem BlockInv.pins {s : State} (h : BlockInv s) : sweepingPins s := by
  obtain ⟨-, -, -, -, hpins, -⟩ := h
  exact hpins

/-- Outside HALT there is no cause (10_state.md R30 I5). -/
theorem BlockInv.err_eq_zero {s : State} (h : BlockInv s) (hp : s.phase ≠ .halt) : s.err = 0 := by
  obtain ⟨-, -, -, -, -, -, hcause, -⟩ := h
  by_contra he
  exact hp (hcause.1.mpr he)

theorem HostInv.congr {s t : State} (h : HostInv s) (hc : t.cfg = s.cfg) (hi : t.inputs = s.inputs) (hx : t.cellX = s.cellX)
    (hy : t.cellY = s.cellY) (h0 : t.fb0 = s.fb0) (h1 : t.fb1 = s.fb1) : HostInv t := by
  obtain ⟨hlegal, hsched, hptr, hbuf⟩ := h
  exact ⟨by rwa [hc], by rwa [realSchedule, hi], by rwa [pointerInRange, hx, hy, hc], by rwa [buffersFit, h0, h1, hc]⟩

theorem HostInv.rows_pos {s : State} (h : HostInv s) : 0 < s.cfg.rows := by
  obtain ⟨hrows, -⟩ := h.legal
  exact hrows

theorem HostInv.depth_pos {s : State} (h : HostInv s) : 0 < s.cfg.n := by
  obtain ⟨-, -, -, -, hn, -⟩ := h.legal
  exact hn

/-- The invariant of a state in a sweep. -/
theorem HostInv.blockInv_of_sweepPlane {s : State} (h : HostInv s) (hscan : scanInRange s) (hp : s.phase = .sweepPlane)
    (herr : s.err = 0) (hpins : sweepingPins s) : BlockInv s :=
  ⟨h.legal, h.schedule, .inr (.inl hp), hscan, hpins, by simp [darkPins, hp], by simp [haltHasCause, hp, herr], h.pointer,
    h.buffers⟩

/-- Of the schedule the invariant says only that its events are real. -/
theorem BlockInv.reschedule {s : State} (h : BlockInv s) {es : List Input} (hes : es.all Input.real = true) :
    BlockInv { s with inputs := es } := by
  obtain ⟨hc, -, hrest⟩ := h
  exact ⟨hc, hes, hrest⟩

/-! ## Reset -/

/-- The reset state of every legal build meets the invariants (10_state.md R57). -/
theorem blockInv_resetWith {p : Params} (hp : p.Legal) : BlockInv (State.resetWith p) := by
  have ⟨hrows, _, hcols, _, hn, _⟩ := hp
  have hphase : (State.resetWith p).phase = .idle := rfl
  exact ⟨hp, rfl, .inl rfl, ⟨hrows, hn⟩, by simp [sweepingPins, hphase], fun _ => ⟨rfl, rfl, rfl⟩,
    by simp [haltHasCause, State.resetWith], ⟨hcols, hrows⟩, rfl, rfl, rfl, rfl⟩

/-- A reset step leads back to the reset state, with the rest of the schedule (70_reset_and_hazards.md R280). -/
theorem blockInv_resetBlock {s : State} (h : BlockInv s) : BlockInv (resetBlock s) :=
  (blockInv_resetWith h.host.legal).reschedule h.host.schedule

/-! ## The tick step -/

/-- A plane load in a sweep establishes I3 for the line and plane it loads (41_scan_fsm.md R144). -/
theorem blockInv_loadPlaneAt {s : State} (h : HostInv s) (hscan : scanInRange s) (hp : s.phase = .sweepPlane)
    (herr : s.err = 0) (hrun : s.run = true) (hrow : s.rowEn = onehot s.line.toNat) : BlockInv (loadPlaneAt s) := by
  have hhold : (holdTicks s.cfg s.plane.toNat).toNat = s.cfg.tUnit * 2 ^ s.plane.toNat := holdTicks_toNat h.legal hscan.2
  have hunit : 1 ≤ s.cfg.tUnit * 2 ^ s.plane.toNat := by
    obtain ⟨-, -, -, -, -, -, ht, -⟩ := h.legal
    exact Nat.mul_pos ht (Nat.two_pow_pos _)
  have hhost : HostInv (loadPlaneAt s) := h.congr rfl rfl rfl rfl rfl rfl
  exact hhost.blockInv_of_sweepPlane hscan hp herr fun _ => ⟨hrun, hhold ▸ hunit, hhold.le, hrow, rfl⟩

/-- A sweep begins on line 0, plane 0, which every legal build has (41_scan_fsm.md R143). -/
theorem blockInv_sweepBegun {s : State} (h : HostInv s) (herr : s.err = 0) (hrun : s.run = true) : BlockInv (sweepBegun s) :=
  blockInv_loadPlaneAt (h.congr rfl rfl rfl rfl rfl rfl) ⟨h.rows_pos, h.depth_pos⟩ rfl herr hrun rfl

/-- While a plane is held, one tick less is to come (41_scan_fsm.md R146). -/
theorem blockInv_holdDown {s : State} (h : BlockInv s) (hp : s.phase = .sweepPlane) (hh : 1 < s.hold.toNat) :
    BlockInv (holdDown s) := by
  obtain ⟨hrun, -, hmax, hrow, hcol⟩ := h.pins hp
  have hhold : (s.hold - 1).toNat = s.hold.toNat - 1 := by bv_omega
  have hhost : HostInv (holdDown s) := h.host.congr rfl rfl rfl rfl rfl rfl
  refine hhost.blockInv_of_sweepPlane h.scan hp (h.err_eq_zero (by simp [hp])) fun _ => ⟨hrun, ?_, ?_, hrow, hcol⟩
  · simp only [holdDown_hold]
    omega
  · simp only [holdDown_hold, holdDown_cfg, holdDown_plane]
    omega

/-- A plane that is not the last gives way to the next one of its line (41_scan_fsm.md R147). -/
theorem blockInv_nextPlane {s : State} (h : BlockInv s) (hp : s.phase = .sweepPlane) (hplane : s.plane.toNat < s.cfg.n - 1) :
    BlockInv (loadPlaneAt { s with plane := s.plane + 1 }) := by
  obtain ⟨hrun, -, -, hrow, -⟩ := h.pins hp
  have hnext : (s.plane + 1).toNat < s.cfg.n := by
    rw [plane_succ h.host.legal hplane]
    omega
  exact blockInv_loadPlaneAt (h.host.congr rfl rfl rfl rfl rfl rfl) ⟨h.scan.1, hnext⟩ hp (h.err_eq_zero (by simp [hp])) hrun hrow

/-- A line that is not the last gives way to the next one, at plane 0 (41_scan_fsm.md R148). -/
theorem blockInv_nextLine {s : State} (h : BlockInv s) (hp : s.phase = .sweepPlane) (hline : s.line.toNat < s.cfg.rows - 1) :
    BlockInv (loadPlaneAt (activateLine (s.line + 1) { s with line := s.line + 1, plane := 0, phase := .sweepPlane })) := by
  obtain ⟨hrun, -⟩ := h.pins hp
  have hnext : (s.line + 1).toNat < s.cfg.rows := by
    rw [line_succ h.host.legal hline]
    omega
  exact blockInv_loadPlaneAt (h.host.congr rfl rfl rfl rfl rfl rfl) ⟨hnext, h.host.depth_pos⟩ rfl
    (h.err_eq_zero (by simp [hp])) hrun rfl

theorem hostInv_endSweep {s : State} (h : HostInv s) : HostInv (endSweep s) :=
  h.congr (endSweep_cfg s) (endSweep_inputs s) (endSweep_cellX s) (endSweep_cellY s) (endSweep_fb0 s) (endSweep_fb1 s)

/-- The next sweep begins in the tick that ends one (41_scan_fsm.md R149). -/
theorem blockInv_nextSweep {s : State} (h : BlockInv s) (hp : s.phase = .sweepPlane) : BlockInv (sweepBegun (endSweep s)) := by
  obtain ⟨hrun, -⟩ := h.pins hp
  exact blockInv_sweepBegun (hostInv_endSweep h.host) ((endSweep_err s).trans (h.err_eq_zero (by simp [hp])))
    ((endSweep_run s).trans hrun)

/-- Every tick step keeps the invariants, by the phase and the scan position it finds. -/
theorem blockInv_tick {s t : State} (hs : BlockInv s) (h : tick s = .next t) : BlockInv t := by
  rcases tick_cases h with ⟨-, rfl⟩ | ⟨-, -, rfl⟩ | ⟨hp, hrun, rfl⟩ | ⟨hp, hh, rfl⟩ | ⟨hp, -, hplane, rfl⟩ |
    ⟨hp, -, -, hline, rfl⟩ | ⟨hp, -, -, -, rfl⟩
  · exact hs
  · exact hs
  · exact blockInv_sweepBegun hs.host (hs.err_eq_zero (by simp [hp])) hrun
  · exact blockInv_holdDown hs hp hh
  · exact blockInv_nextPlane hs hp hplane
  · exact blockInv_nextLine hs hp hline
  · exact blockInv_nextSweep hs hp

/-! ## The bus step -/

theorem cellExists_iff {p : Params} {y x : Nat} : cellExists p y x = true ↔ y < p.rows ∧ x < p.cols := by
  simp [cellExists]

/-- A stored value has N bits (30_encoding.md R94). -/
theorem cellValue_lt (p : Params) (v : Word) : (cellValue p v).toNat < 2 ^ p.n := by
  rw [cellValue, BitVec.toNat_ofNat]
  exact (Nat.mod_le _ _).trans_lt (Nat.mod_lt _ (Nat.two_pow_pos _))

/-- I7 says the same of either buffer. -/
theorem buffersFit_iff {s : State} :
    buffersFit s ↔ ∀ b, Frame.wf (buffer s b) = true ∧ Frame.fits s.cfg (buffer s b) = true := by
  simp only [buffersFit, Bool.forall_bool, buffer_false, buffer_true]
  tauto

/-- A host store of an N-bit value at a cell keeps I7: the read side is not touched, the write side is written canonically. -/
theorem buffersFit_cellWrite {s : State} {v : Cell} (h : buffersFit s) (hptr : pointerInRange s) (hv : v.toNat < 2 ^ s.cfg.n) :
    buffersFit (cellWrite v s) := by
  rw [buffersFit_iff] at h ⊢
  intro b
  rw [cellWrite_cfg]
  have hx : s.cellX.toNat < 65536 := s.cellX.isLt
  by_cases hb : b = s.rsel
  · rw [hb, buffer_cellWrite_readSide]
    exact h s.rsel
  · obtain ⟨hwf, hfits⟩ := h (!s.rsel)
    rw [Bool.eq_not_of_ne hb, buffer_cellWrite_writeSide]
    exact ⟨Frame.wf_write _ v hwf,
      Frame.fits_write hfits ((cellKey_div hx).trans_lt hptr.2) ((cellKey_mod hx).trans_lt hptr.1) hv⟩

/-- The plane the scan engine shows is not touched by a host store (20_memory.md R62). -/
theorem planeRow_cellWrite (v : Cell) (s : State) (y i : Nat) : planeRow (cellWrite v s) y i = planeRow s y i := by
  rw [planeRow, cellWrite_cfg, cellWrite_rsel, buffer_cellWrite_readSide, planeRow]

theorem blockInv_cellWrite {s : State} {v : Cell} (h : BlockInv s) (hv : v.toNat < 2 ^ s.cfg.n) : BlockInv (cellWrite v s) := by
  have hbuf := buffersFit_cellWrite h.host.buffers h.host.pointer hv
  obtain ⟨hc, hi, hsettled, hscan, hpins, hdark, hcause, hptr, -⟩ := h
  refine ⟨?_, ?_, ?_, ?_, ?_, ?_, ?_, ?_, hbuf⟩
  · simpa using hc
  · simpa [realSchedule] using hi
  · simpa [settledPhase] using hsettled
  · simpa [scanInRange] using hscan
  · simpa [sweepingPins, planeRow_cellWrite] using hpins
  · simpa [darkPins] using hdark
  · simpa [haltHasCause] using hcause
  · simpa [pointerInRange] using hptr

/-- START sets RUN outside HALT (43_host_operations.md R197). -/
theorem blockInv_start {s : State} (h : BlockInv s) (hp : s.phase ≠ .halt) : BlockInv { s with run := true } := by
  obtain ⟨hc, hi, hsettled, hscan, hpins, hdark, ⟨hiff, herr, -⟩, hhost⟩ := h
  exact ⟨hc, hi, hsettled, hscan, fun hsweep => ⟨rfl, (hpins hsweep).2⟩, hdark, ⟨hiff, herr, fun hhalt => absurd hhalt hp⟩, hhost⟩

/-- A halt leaves the pins dark and a legal cause (60_exceptions.md R244). -/
theorem blockInv_halt {s : State} (h : BlockInv s) {c : BitVec 2} (v : Word) (hc : c = 2 ∨ c = 3) : BlockInv (halt c v s) := by
  have hlegal : c ≠ 0 ∧ c ≠ 1 := by rcases hc with rfl | rfl <;> decide
  obtain ⟨hcfg, hi, -, hscan, -, -, -, hhost⟩ := h
  exact ⟨hcfg, hi, .inr (.inr rfl), hscan, by simp [sweepingPins], fun _ => ⟨rfl, rfl, rfl⟩,
    ⟨⟨fun _ => hlegal.1, fun _ => rfl⟩, hlegal.2, fun _ => rfl⟩, hhost⟩

/-- The pointer moves to a checked coordinate only (43_host_operations.md R201). -/
theorem blockInv_movePointer {s : State} (h : BlockInv s) {v : Word} (hv : coordInGeometry s.cfg v = true) :
    BlockInv { s with cellX := coordX v, cellY := coordY v } := by
  obtain ⟨hc, hi, hsettled, hscan, hpins, hdark, hcause, -, hbuf⟩ := h
  exact ⟨hc, hi, hsettled, hscan, hpins, hdark, hcause, (cellExists_iff.mp hv).symm, hbuf⟩

/-- Every effect of a bus step keeps the invariants; those not named write nothing that R30 speaks of. -/
theorem blockInv_busEffect {s t : State} (hs : BlockInv s) (h : BusEffect s t) : BlockInv t := by
  cases h with
  | start hp => exact blockInv_start hs hp
  | halt _ _ v hc => exact blockInv_halt hs v hc
  | pointer _ _ hv => exact blockInv_movePointer hs hv
  | store _ v => exact blockInv_cellWrite hs (cellValue_lt s.cfg v)
  | _ => exact hs

/-- A scheduled code of the BUS format runs a transaction, with its word on the port. -/
theorem runCode_effect {c : Code} {s t : State} (hf : c.fmt = .bus) (h : runCode c s = .next t) : BusEffect (onPort c s) t := by
  unfold runCode at h
  split at h
  · rename_i i hi
    have hfields := decodeFields_of_decode hi
    simp only [decodeFields, hf] at hfields
    split_ifs at hfields
    cases hfields
    exact decodeBus_effect h
  · cases h

/-! ## One event of the schedule -/

theorem blockInv_arrive {s t : State} {e : Input} (hs : BlockInv s) (he : e.real = true) (h : arrive e s = .next t) : BlockInv t := by
  cases e with
  | tick => exact blockInv_tick hs h
  | reset =>
    cases h
    exact blockInv_resetBlock hs
  | word c =>
    have hf : c.fmt = .bus := by
      simp only [Input.real, Bool.and_eq_true, decide_eq_true_eq] at he
      exact he.1.1
    have hport : BlockInv (onPort c s) := by
      rw [onPort_eq]
      exact hs
    exact blockInv_busEffect hport (runCode_effect hf h)

/-! ## The obligations -/

/-- Settles O2: the reset state of any legal build, and the reference configuration, whose parameters are legal. -/
theorem invHoldsAfterReset : Obligations.InvHoldsAfterReset :=
  ⟨fun _ => blockInv_resetWith, blockInv_resetWith (by decide)⟩

/-- Settles O3, by the event the step takes: the event leaves the schedule, and then arrives. -/
theorem stepKeepsInvariants : Obligations.StepKeepsInvariants := by
  intro s t hs h
  have hc := hs.host.legal
  cases hin : s.inputs with
  | nil =>
    rw [step_nil hc hin] at h
    exact blockInv_tick hs h
  | cons e rest =>
    rw [step_cons hc hin] at h
    have hreal : e.real = true ∧ rest.all Input.real = true := by
      simpa [realSchedule, hin] using hs.host.schedule
    exact blockInv_arrive (hs.reschedule hreal.2) hreal.1 h

end Sys2Proof.Machine

/-! # Proofs for 20_memory.md: reads have no side effect, and a pending request is served within a sweep

A run is followed step by step with `serviceTicks`, the ticks a pending request still waits (R73): each tick takes one off it
or serves the request, and a transaction that does not halt leaves it alone. That no run stops, and that a halt lasts, are proved first. -/

namespace Sys2Proof.Machine

/-! ## Every event of the hardware completes -/

/-- Every read is answered on `rdata`, and changes nothing else (43_host_operations.md R190 a). -/
theorem exec_decodeRead {s : State} (hptr : pointerInRange s) (a : BitVec 4) :
    ∃ v : Word, exec (decodeRead a) s = .next { s with rdata := v } := by
  have hload : exec .rdCellData s = .next { s with rdata := (cellRead s).setWidth 32 } :=
    withCell_eq_next.mpr ⟨cellExists_iff.mpr hptr.symm, rfl⟩
  exact decodeRead_cases (P := fun i => ∃ v : Word, exec i s = .next { s with rdata := v }) ⟨_, rfl⟩ ⟨_, rfl⟩ ⟨_, rfl⟩ ⟨_, rfl⟩
    ⟨_, hload⟩ ⟨_, rfl⟩ ⟨_, rfl⟩ ⟨_, rfl⟩ ⟨_, rfl⟩ ⟨_, rfl⟩ ⟨_, rfl⟩ ⟨_, rfl⟩ ⟨_, rfl⟩ ⟨_, rfl⟩ ⟨_, rfl⟩ ⟨_, rfl⟩ a

/-- A write completes in HALT, where it is ignored, and elsewhere where its rule completes. -/
theorem exists_next_busWrite {s : State} {f : State → Out} (hf : ∃ t, f s = .next t) : ∃ t, busWrite f s = .next t := by
  by_cases hp : s.phase = .halt
  · exact ⟨s, busWrite_of_halt hp⟩
  · rwa [busWrite_of_not_halt hp]

theorem exists_next_wrCellData {s : State} (hptr : pointerInRange s) (v : Word) : ∃ t, exec (.wrCellData v) s = .next t := by
  simp only [exec, execWrCellData]
  refine exists_next_busWrite ?_
  split_ifs
  · exact ⟨_, rfl⟩
  · exact ⟨_, withCell_eq_next.mpr ⟨cellExists_iff.mpr hptr.symm, rfl⟩⟩

theorem exists_next_decodeWrite {s : State} (hptr : pointerInRange s) (a : BitVec 4) (v : Word) :
    ∃ t, exec (decodeWrite a v) s = .next t := by
  refine decodeWrite_cases (P := fun i => ∃ t, exec i s = .next t) v ?_ ?_
    (decodeCommand_cases (P := fun i => ∃ t, exec i s = .next t) v ⟨s, rfl⟩ ?_ ?_ fun _ => ?_) ?_ (exists_next_wrCellData hptr v)
    ⟨s, rfl⟩ ⟨s, rfl⟩ ⟨s, rfl⟩ ⟨s, rfl⟩ ?_ ⟨s, rfl⟩ ⟨s, rfl⟩ ⟨s, rfl⟩ ⟨s, rfl⟩ ⟨s, rfl⟩ ⟨s, rfl⟩ a
  all_goals
    simp only [exec, execWrCtrl, execWrStatus, execCmdStart, execCmdSwapRequest, execCmdReserved, execWrCellAddr, execWrHwLines]
    exact exists_next_busWrite ⟨_, rfl⟩

/-- Every transaction completes where the pointer names a cell (43_host_operations.md R190 e). -/
theorem exists_next_decodeBus {s : State} (hptr : pointerInRange s) (w : BusWord) : ∃ t, exec (decodeBus w) s = .next t := by
  unfold decodeBus
  split
  · exact exists_next_decodeWrite hptr _ _
  · obtain ⟨v, hv⟩ := exec_decodeRead hptr (busIndex w)
    exact ⟨_, hv⟩

/-- A whole 37-bit transaction of the schedule runs as its word decodes, with that word on the port. -/
theorem runCode_of_real {c : Code} (hc : Input.real (.word c) = true) (s : State) :
    runCode c s = exec (decodeBus (BitVec.ofNat 37 c.val)) { s with port := BitVec.ofNat 37 c.val } := by
  simp only [Input.real, Bool.and_eq_true, decide_eq_true_eq] at hc
  obtain ⟨⟨hfmt, hlen⟩, hval⟩ := hc
  have hdec : decode s.cfg c = .ok (decodeBus (BitVec.ofNat 37 c.val)) := by
    simpa [decode, decodeFields, hfmt, hlen, decodeBus_wf] using hval
  rw [runCode_of_decode hdec, onPort_eq, if_pos hfmt]

/-- Under the invariant a tick completes: where it loads a plane, that plane exists (41_scan_fsm.md R156). -/
theorem exists_next_tick {s : State} (hs : BlockInv s) : ∃ t, tick s = .next t := by
  obtain ⟨hc, -, hsettled, ⟨hline, hplane⟩, -⟩ := hs
  have hbegin {u : State} (hu : u.cfg = s.cfg) : ∃ t, beginSweep u = .next t := ⟨_, beginSweep_of_legal (hu ▸ hc)⟩
  rcases hsettled with hp | hp | hp <;> simp only [tick, hp]
  · split_ifs
    · exact hbegin rfl
    · exact ⟨s, rfl⟩
  · unfold planeExpired advanceLine
    split_ifs with hhold hlast hrow
    · exact ⟨_, rfl⟩
    · refine ⟨_, loadPlane_of_exists hline ?_⟩
      change (s.plane + 1).toNat < s.cfg.n
      rw [plane_succ hc hlast]
      omega
    · refine ⟨_, loadPlane_of_exists ?_ ((Nat.zero_le _).trans_lt hplane)⟩
      change (s.line + 1).toNat < s.cfg.rows
      rw [line_succ hc hrow]
      exact Nat.add_lt_of_lt_sub hrow
    · exact hbegin (endSweep_cfg _)
  · exact ⟨s, rfl⟩

/-! ## One step of a run, by the event it takes -/

theorem nextEvent_real {s : State} (hs : BlockInv s) : (nextEvent s.inputs).real = true := by
  have hreal := hs.host.schedule
  unfold nextEvent
  cases hin : s.inputs with
  | nil => rfl
  | cons e rest =>
    simp only [realSchedule, hin, List.all_cons, Bool.and_eq_true] at hreal
    exact hreal.1

/-- The event a step takes leaves the schedule, and the rest of it is real. -/
theorem BlockInv.dropEvent {s : State} (hs : BlockInv s) : BlockInv { s with inputs := s.inputs.tail } :=
  hs.reschedule (List.all_eq_true.mpr fun e he => List.all_eq_true.mp hs.host.schedule e (List.mem_of_mem_tail he))

/-- A step is the arrival of the next event, also where none is scheduled and the tick goes on alone (log 3). -/
theorem step_eq_arrive {s : State} (hc : s.cfg.Legal) :
    step s = arrive (nextEvent s.inputs) { s with inputs := s.inputs.tail } := by
  cases hin : s.inputs with
  | nil =>
    rw [step_nil hc hin]
    change tick s = tick { s with inputs := [] }
    rw [← hin]
  | cons e rest => exact step_cons hc hin

/-- Under the invariant the next event arrives as a tick, as a reset, or as a transaction with its word on the port. -/
theorem step_cases {s t : State} (hs : BlockInv s) (h : step s = .next t) :
    (nextEvent s.inputs = .tick ∧ tick { s with inputs := s.inputs.tail } = .next t) ∨
    nextEvent s.inputs = .reset ∨
    (nextEvent s.inputs ≠ .tick ∧ ∃ q : BusWord, BusEffect { s with inputs := s.inputs.tail, port := q } t) := by
  have hreal := nextEvent_real hs
  rw [step_eq_arrive hs.host.legal] at h
  cases he : nextEvent s.inputs with
  | tick => exact .inl ⟨rfl, by rwa [he] at h⟩
  | reset => exact .inr (.inl rfl)
  | word c =>
    rw [he] at h hreal
    exact .inr (.inr ⟨nofun, _, decodeBus_effect ((runCode_of_real hreal _).symm.trans h)⟩)

/-- Under the invariant the block always has a move (41_scan_fsm.md R156). -/
theorem exists_next_step {s : State} (hs : BlockInv s) : ∃ t, step s = .next t := by
  have hreal := nextEvent_real hs
  rw [step_eq_arrive hs.host.legal]
  cases he : nextEvent s.inputs with
  | tick => exact exists_next_tick hs.dropEvent
  | reset => exact ⟨_, rfl⟩
  | word c =>
    rw [he] at hreal
    simp only [arrive, runCode_of_real hreal]
    refine exists_next_decodeBus ?_ _
    exact hs.host.pointer

/-! ## Runs -/

theorem run_succ_of_step {s u : State} (k : Nat) (h : step s = .next u) :
    Host.Core.run Sys2Proof.core (k + 1) s = Host.Core.run Sys2Proof.core k u := by
  have hcore : Sys2Proof.core.step s = .next u := h
  simp only [Host.Core.run, hcore]

/-- A run of `k + 1` steps is one step, which keeps the invariant, and a run of `k` on the rest of the schedule. -/
theorem run_succ_cases {k : Nat} {s t : State} (hs : BlockInv s) (h : Host.Core.run Sys2Proof.core (k + 1) s = .next t) :
    ∃ u, step s = .next u ∧ BlockInv u ∧ u.inputs = s.inputs.tail ∧ Host.Core.run Sys2Proof.core k u = .next t := by
  obtain ⟨u, hu⟩ := exists_next_step hs
  obtain ⟨-, hin⟩ := stepTakesOneEventAndKeepsParameters s u hu
  exact ⟨u, hu, stepKeepsInvariants s u hs hu, hin, (run_succ_of_step k hu).symm.trans h⟩

theorem exists_next_run {s : State} (hs : BlockInv s) (k : Nat) : ∃ t, Host.Core.run Sys2Proof.core k s = .next t := by
  induction k generalizing s with
  | zero => exact ⟨s, rfl⟩
  | succ k ih =>
    obtain ⟨u, hu⟩ := exists_next_step hs
    rw [run_succ_of_step k hu]
    exact ih (stepKeepsInvariants s u hs hu)

/-- What holds of the next `k + 1` scheduled events, and of a tick, holds of the next event and of the `k` after it. -/
theorem forall_take_succ {E : Input → Prop} (htick : E .tick) {k : Nat} {es : List Input} (h : ∀ e ∈ es.take (k + 1), E e) :
    E (nextEvent es) ∧ ∀ e ∈ es.tail.take k, E e := by
  cases es with
  | nil => exact ⟨htick, by simp⟩
  | cons e rest => exact List.forall_mem_cons.mp h

/-- A property that every step on an event of the class `E` keeps holds along every run on such events. -/
theorem run_keeps {E : Input → Prop} {P : State → Prop} (htick : E .tick)
    (hstep : ∀ s t, BlockInv s → E (nextEvent s.inputs) → P s → step s = .next t → P t) {k : Nat} {s t : State}
    (hs : BlockInv s) (hE : ∀ e ∈ s.inputs.take k, E e) (hP : P s) (h : Host.Core.run Sys2Proof.core k s = .next t) : P t := by
  induction k generalizing s with
  | zero =>
    cases h
    exact hP
  | succ k ih =>
    obtain ⟨u, hu, hinv, hin, hrun⟩ := run_succ_cases hs h
    obtain ⟨he, hrest⟩ := forall_take_succ htick hE
    exact ih hinv (by rwa [hin]) (hstep s u hs he hP hu) hrun

theorem tick_of_halt {s : State} (hp : s.phase = .halt) : tick s = .next s := by
  simp only [tick, hp]

/-- Only a reset leaves HALT (60_exceptions.md R246). -/
theorem halt_of_step {s t : State} (hs : BlockInv s) (hr : nextEvent s.inputs ≠ .reset) (hp : s.phase = .halt)
    (h : step s = .next t) : t.phase = .halt := by
  rcases step_cases hs h with ⟨-, htick⟩ | hreset | ⟨-, q, heffect⟩
  · cases htick.symm.trans (tick_of_halt hp)
    exact hp
  · exact absurd hreset hr
  · cases heffect with
    | same => exact hp
    | read => exact hp
    | halt => rfl
    | store hne => exact absurd hp hne
    | _ hne => exact absurd hp hne

theorem halt_of_run {k : Nat} {s t : State} (hs : BlockInv s) (hr : ∀ e ∈ s.inputs.take k, e ≠ .reset)
    (hp : s.phase = .halt) (h : Host.Core.run Sys2Proof.core k s = .next t) : t.phase = .halt :=
  run_keeps (E := (· ≠ .reset)) nofun (fun _ _ => halt_of_step) hs hr hp h

/-- A tick halts nothing: halts come with transactions (60_exceptions.md R244). -/
theorem not_halt_of_tick {s t : State} (h : tick s = .next t) (hp : s.phase ≠ .halt) : t.phase ≠ .halt := by
  rcases tick_cases h with ⟨hhalt, -⟩ | ⟨-, -, rfl⟩ | ⟨-, -, rfl⟩ | ⟨-, -, rfl⟩ | ⟨-, -, -, rfl⟩ | ⟨-, -, -, -, rfl⟩ |
    ⟨-, -, -, -, rfl⟩
  · exact absurd hhalt hp
  all_goals simp [hp]

theorem not_halt_of_run_ticks {k : Nat} {s t : State} (hs : BlockInv s) (hticks : ticksOnly k s.inputs) (hp : s.phase ≠ .halt)
    (h : Host.Core.run Sys2Proof.core k s = .next t) : t.phase ≠ .halt := by
  refine run_keeps (E := (· = .tick)) (P := (·.phase ≠ .halt)) rfl ?_ hs hticks hp h
  intro u v hu he hp hstep
  rw [step_eq_arrive hu.host.legal, he] at hstep
  exact not_halt_of_tick hstep hp

/-! ## The countdown of a sweep -/

/-- The ticks of a line are those of plane 0 and of the planes after it (00_scope.md R8). -/
theorem tLine_eq {p : Params} (hc : p.Legal) : p.tLine = p.tUnit + p.tUnit * (2 ^ p.n - 2) := by
  obtain ⟨-, -, -, -, hn, -⟩ := hc
  have : 2 ^ 1 ≤ 2 ^ p.n := Nat.pow_le_pow_right (by decide) hn
  rw [Params.tLine, ← mul_one_add]
  congr 1
  omega

/-- The ticks of a sweep are those of line 0 and of the lines after it (00_scope.md R8). -/
theorem tSweep_eq {p : Params} (hc : p.Legal) : p.tSweep = p.tLine + (p.rows - 1) * p.tLine := by
  obtain ⟨hrows, -⟩ := hc
  rw [Params.tSweep, ← one_add_mul, Nat.add_sub_cancel' hrows]

/-- Ticks of plane `i` and of the planes after it, `i` not past the last. -/
theorem ticks_from_plane (p : Params) {i : Nat} (hi : i + 1 ≤ p.n) :
    p.tUnit * 2 ^ i + p.tUnit * (2 ^ p.n - 2 ^ (i + 1)) = p.tUnit * (2 ^ p.n - 2 ^ i) := by
  have hle : 2 ^ (i + 1) ≤ 2 ^ p.n := Nat.pow_le_pow_right (by decide) hi
  have hdouble : 2 ^ (i + 1) = 2 ^ i * 2 := pow_succ 2 i
  rw [← Nat.mul_add]
  congr 1
  omega

/-- A sweep that has just begun has its whole period to come (41_scan_fsm.md R153). -/
theorem ticksLeft_of_sweepStart {s : State} (hc : s.cfg.Legal) (h : sweepStart s) : ticksLeft s = s.cfg.tSweep := by
  obtain ⟨-, hline, hplane, hhold⟩ := h
  have ⟨_, _, _, _, hn, _⟩ := hc
  simp [ticksLeft, hline, hplane, hhold, holdTicks_toNat hc hn, tSweep_eq hc, tLine_eq hc]

/-- A sweep in progress never has more than its period to come. -/
theorem ticksLeft_le_tSweep {s : State} (hs : BlockInv s) (hp : s.phase = .sweepPlane) : ticksLeft s ≤ s.cfg.tSweep := by
  obtain ⟨-, -, hmax, -⟩ := hs.pins hp
  obtain ⟨hline, hplane⟩ := hs.scan
  have hthis : s.hold.toNat + s.cfg.tUnit * (2 ^ s.cfg.n - 2 ^ (s.plane.toNat + 1)) ≤ s.cfg.tLine :=
    calc _ ≤ s.cfg.tUnit * 2 ^ s.plane.toNat + s.cfg.tUnit * (2 ^ s.cfg.n - 2 ^ (s.plane.toNat + 1)) :=
          Nat.add_le_add_right hmax _
      _ = s.cfg.tUnit * (2 ^ s.cfg.n - 2 ^ s.plane.toNat) := ticks_from_plane s.cfg hplane
      _ ≤ s.cfg.tLine := Nat.mul_le_mul_left _ (Nat.sub_le_sub_left Nat.one_le_two_pow _)
  calc ticksLeft s ≤ s.cfg.tLine + (s.cfg.rows - 1) * s.cfg.tLine :=
        Nat.add_le_add hthis (Nat.mul_le_mul_right _ (Nat.sub_le _ _))
    _ = s.cfg.tSweep := (tSweep_eq hs.host.legal).symm

/-- A hold that goes on takes one tick off (41_scan_fsm.md R146). -/
theorem ticksLeft_holdDown {s : State} (hh : 1 < s.hold.toNat) : ticksLeft (holdDown s) + 1 = ticksLeft s := by
  have hhold : (s.hold - 1).toNat + 1 = s.hold.toNat := by bv_omega
  simp only [ticksLeft, holdDown_hold, holdDown_plane, holdDown_line, holdDown_cfg]
  omega

/-- So does the last tick of a plane that is not the last of its line (R147). -/
theorem ticksLeft_nextPlane {s : State} (hc : s.cfg.Legal) (hh : s.hold.toNat = 1) (hplane : s.plane.toNat < s.cfg.n - 1) :
    ticksLeft (loadPlaneAt { s with plane := s.plane + 1 }) + 1 = ticksLeft s := by
  have hsucc := plane_succ hc hplane
  have hrest := ticks_from_plane s.cfg (i := s.plane.toNat + 1) (by omega)
  simp only [ticksLeft, loadPlaneAt_hold, loadPlaneAt_plane, loadPlaneAt_line, loadPlaneAt_cfg, hsucc, hh,
    holdTicks_toNat hc (i := s.plane.toNat + 1) (by omega)]
  omega

/-- So does the last tick of a line that is not the last (R148). -/
theorem ticksLeft_nextLine {s : State} (hc : s.cfg.Legal) (hh : s.hold.toNat = 1) (hplane : s.plane.toNat + 1 = s.cfg.n)
    (hline : s.line.toNat < s.cfg.rows - 1) :
    ticksLeft (loadPlaneAt (activateLine (s.line + 1) { s with line := s.line + 1, plane := 0, phase := .sweepPlane })) + 1 =
      ticksLeft s := by
  have ⟨_, _, _, _, hn, _⟩ := hc
  obtain ⟨m, hm⟩ : ∃ m, s.cfg.rows - 1 - s.line.toNat = m + 1 := ⟨s.cfg.rows - 2 - s.line.toNat, by omega⟩
  have hm' : s.cfg.rows - 1 - (s.line.toNat + 1) = m := by omega
  simp only [ticksLeft, loadPlaneAt_hold, loadPlaneAt_plane, loadPlaneAt_line, loadPlaneAt_cfg, activateLine_plane,
    activateLine_line, activateLine_cfg, line_succ hc hline, hh, hplane, hm, hm', Nat.succ_mul, tLine_eq hc]
  simp [holdTicks_toNat hc hn]
  omega

/-! ## A pending request -/

/-- The ticks until a pending request is served: the rest of the sweep, and in IDLE one more to begin it (20_memory.md R73). -/
def serviceTicks (s : State) : Nat := if s.phase = .idle then 1 + s.cfg.tSweep else ticksLeft s

/-- `t` follows `s` with the request of `s` still pending: the roles and the miss counter are as they were. -/
def RequestWaits (s t : State) : Prop := t.run = true ∧ t.swapReq = true ∧ t.rsel = s.rsel ∧ t.missCnt = s.missCnt

/-- `v` begins the sweep in which the request of `s` has been served (20_memory.md R72). -/
def RequestServed (s v : State) : Prop :=
  sweepStart v ∧ v.swapReq = false ∧ v.sweepDone = true ∧ v.rsel = !s.rsel ∧ v.missCnt = s.missCnt

/-- A started block is in IDLE or sweeping (10_state.md R30 I1, I5). -/
theorem BlockInv.phase_of_run {s : State} (hs : BlockInv s) (hrun : s.run = true) : s.phase = .idle ∨ s.phase = .sweepPlane := by
  obtain ⟨-, -, hsettled, -, -, -, ⟨-, -, hstopped⟩, -⟩ := hs
  rcases hsettled with hp | hp | hp
  · exact .inl hp
  · exact .inr hp
  · simp [hstopped hp] at hrun

theorem serviceTicks_of_idle {s : State} (hp : s.phase = .idle) : serviceTicks s = 1 + s.cfg.tSweep := if_pos hp

theorem serviceTicks_of_sweepPlane {s : State} (hp : s.phase = .sweepPlane) : serviceTicks s = ticksLeft s := by
  simp [serviceTicks, hp]

/-- Within a sweep the service comes nearer as the sweep's end does. -/
theorem serviceTicks_succ {s t : State} (hs : s.phase = .sweepPlane) (ht : t.phase = .sweepPlane)
    (h : ticksLeft t + 1 = ticksLeft s) : serviceTicks t + 1 = serviceTicks s := by
  rw [serviceTicks_of_sweepPlane hs, serviceTicks_of_sweepPlane ht, h]

theorem serviceTicks_pos {s : State} (hs : BlockInv s) (hrun : s.run = true) : 1 ≤ serviceTicks s := by
  rcases hs.phase_of_run hrun with hp | hp
  · rw [serviceTicks_of_idle hp]
    omega
  · obtain ⟨-, hhold, -⟩ := hs.pins hp
    rw [serviceTicks_of_sweepPlane hp, ticksLeft]
    omega

theorem serviceTicks_le {s : State} (hs : BlockInv s) (hrun : s.run = true) :
    serviceTicks s ≤ (if s.phase = .idle then 1 else 0) + s.cfg.tSweep := by
  rcases hs.phase_of_run hrun with hp | hp
  · rw [serviceTicks_of_idle hp, if_pos hp]
  · simpa [serviceTicks_of_sweepPlane hp, hp] using ticksLeft_le_tSweep hs hp

/-- The last tick of a sweep serves a pending request, and begins the next sweep on the new roles (41_scan_fsm.md R149). -/
theorem requestServed_nextSweep {s : State} (hreq : s.swapReq = true) : RequestServed s (sweepBegun (endSweep s)) :=
  ⟨⟨rfl, rfl, rfl, rfl⟩, by simp, by simp, by simp [hreq], by simp [hreq]⟩

/-- A tick serves a pending request, or brings its service one tick nearer. -/
theorem request_tick {s t : State} (hs : BlockInv s) (hrun : s.run = true) (hreq : s.swapReq = true) (h : tick s = .next t) :
    RequestServed s t ∨ RequestWaits s t ∧ serviceTicks t + 1 = serviceTicks s := by
  have hc := hs.host.legal
  have hlast (hp : s.phase = .sweepPlane) (hh : s.hold.toNat ≤ 1) : s.hold.toNat = 1 := by
    obtain ⟨-, hpos, -⟩ := hs.pins hp
    omega
  rcases tick_cases h with ⟨hp, -⟩ | ⟨-, hstopped, -⟩ | ⟨hp, -, rfl⟩ | ⟨hp, hh, rfl⟩ | ⟨hp, hh, hplane, rfl⟩ |
    ⟨hp, hh, hplane, hline, rfl⟩ | ⟨-, -, -, -, rfl⟩
  · rcases hs.phase_of_run hrun with hp' | hp' <;> simp [hp'] at hp
  · simp [hrun] at hstopped
  · refine .inr ⟨⟨hrun, hreq, rfl, rfl⟩, ?_⟩
    have hwhole : ticksLeft (sweepBegun s) = s.cfg.tSweep := ticksLeft_of_sweepStart hc ⟨rfl, rfl, rfl, rfl⟩
    rw [serviceTicks_of_sweepPlane (sweepBegun_phase s), serviceTicks_of_idle hp, hwhole, Nat.add_comm]
  · exact .inr ⟨⟨hrun, hreq, rfl, rfl⟩, serviceTicks_succ hp hp (ticksLeft_holdDown hh)⟩
  · exact .inr ⟨⟨hrun, hreq, rfl, rfl⟩, serviceTicks_succ hp hp (ticksLeft_nextPlane hc (hlast hp hh) hplane)⟩
  · have hplane' : s.plane.toNat + 1 = s.cfg.n := by
      obtain ⟨-, hlt⟩ := hs.scan
      omega
    exact .inr ⟨⟨hrun, hreq, rfl, rfl⟩, serviceTicks_succ hp rfl (ticksLeft_nextLine hc (hlast hp hh) hplane' hline)⟩
  · exact .inl (requestServed_nextSweep hreq)

/-- A transaction that does not halt leaves a pending request waiting as long as before: nothing the host can write takes it
back (20_memory.md R73). -/
theorem request_busEffect {s t : State} (h : BusEffect s t) (hrun : s.run = true) (hreq : s.swapReq = true)
    (hp : t.phase ≠ .halt) : RequestWaits s t ∧ serviceTicks t = serviceTicks s := by
  cases h with
  | halt => exact absurd rfl hp
  | store _ _ _ hfree => simp [hreq] at hfree
  | start => exact ⟨⟨rfl, hreq, rfl, rfl⟩, rfl⟩
  | request => exact ⟨⟨hrun, rfl, rfl, rfl⟩, rfl⟩
  | _ => exact ⟨⟨hrun, hreq, rfl, rfl⟩, rfl⟩

/-- One step with a request pending: it is served, or it waits, and a tick has brought its service nearer. -/
theorem request_step {s t : State} (hs : BlockInv s) (hrun : s.run = true) (hreq : s.swapReq = true)
    (hr : nextEvent s.inputs ≠ .reset) (h : step s = .next t) (hp : t.phase ≠ .halt) :
    RequestServed s t ∨
      RequestWaits s t ∧ serviceTicks s = (if nextEvent s.inputs = .tick then 1 else 0) + serviceTicks t := by
  rcases step_cases hs h with ⟨he, htick⟩ | hreset | ⟨he, q, heffect⟩
  · rw [if_pos he, Nat.add_comm]
    exact (request_tick hs.dropEvent hrun hreq htick).imp_right fun ⟨hwaits, hticks⟩ => ⟨hwaits, hticks.symm⟩
  · exact absurd hreset hr
  · rw [if_neg he, Nat.zero_add]
    obtain ⟨hwaits, hticks⟩ := request_busEffect heffect hrun hreq hp
    exact .inr ⟨hwaits, hticks.symm⟩

/-- Along a run with enough ticks, that does not end in HALT, the request is served within `serviceTicks`. -/
theorem exists_serving_step {k : Nat} {s t : State} (hs : BlockInv s) (hrun : s.run = true) (hreq : s.swapReq = true)
    (hr : ∀ e ∈ s.inputs.take k, e ≠ .reset) (henough : serviceTicks s ≤ ticksIn k s.inputs)
    (h : Host.Core.run Sys2Proof.core k s = .next t) (hp : t.phase ≠ .halt) :
    ∃ (j : Nat) (u v : State), j < k ∧ ticksIn (j + 1) s.inputs ≤ serviceTicks s ∧
      Host.Core.run Sys2Proof.core j s = .next u ∧ u.swapReq = true ∧ u.rsel = s.rsel ∧
      Host.Core.run Sys2Proof.core (j + 1) s = .next v ∧ RequestServed s v := by
  have hpos := serviceTicks_pos hs hrun
  induction k generalizing s with
  | zero => exact absurd (hpos.trans henough) (by simp [ticksIn])
  | succ k ih =>
    obtain ⟨s', hstep, hs', hin, hrest⟩ := run_succ_cases hs h
    obtain ⟨he, hr'⟩ := forall_take_succ (E := (· ≠ .reset)) nofun hr
    rw [← hin] at hr'
    have hp' : s'.phase ≠ .halt := fun hhalt => hp (halt_of_run hs' hr' hhalt hrest)
    rcases request_step hs hrun hreq he hstep hp' with hserved | ⟨⟨hrun', hreq', hrsel, hmiss⟩, hticks⟩
    · refine ⟨0, s, s', Nat.succ_pos k, le_trans ?_ hpos, rfl, hreq, rfl, run_succ_of_step 0 hstep, hserved⟩
      simp only [ticksIn]
      split_ifs <;> decide
    · have hcount (m : Nat) : ticksIn (m + 1) s.inputs = (if nextEvent s.inputs = .tick then 1 else 0) + ticksIn m s'.inputs := by
        rw [hin, ticksIn]
      rw [hcount, hticks] at henough
      obtain ⟨j, u, v, hj, hbound, hu, hureq, hursel, hv, hserved⟩ :=
        ih hs' hrun' hreq' hr' (Nat.le_of_add_le_add_left henough) hrest (serviceTicks_pos hs' hrun')
      refine ⟨j + 1, u, v, Nat.succ_lt_succ hj, ?_, (run_succ_of_step j hstep).trans hu, hureq, hursel.trans hrsel,
        (run_succ_of_step (j + 1) hstep).trans hv, ?_⟩
      · rw [hcount, hticks]
        exact Nat.add_le_add_left hbound _
      · rwa [RequestServed, ← hrsel, ← hmiss]

/-! ## The obligations -/

/-- Settles O35: the run completes and, with ticks alone, halts nowhere; `exists_serving_step` finds the serving step within
`serviceTicks`, which is at most the bound. -/
theorem pendingRequestIsServedWithinASweep : Obligations.PendingRequestIsServedWithinASweep := by
  rintro s k bound hs hrun hreq hr rfl henough
  have hle := serviceTicks_le hs hrun
  have hnot : s.phase ≠ .halt := by rcases hs.phase_of_run hrun with hp | hp <;> simp [hp]
  obtain ⟨t, ht⟩ := exists_next_run hs k
  refine ⟨t, ht, fun hticks => not_halt_of_run_ticks hs hticks hnot ht, fun hp => ?_⟩
  obtain ⟨j, u, v, hj, hbound, hserves⟩ := exists_serving_step hs hrun hreq (List.forall_mem_ne'.mpr hr) (hle.trans henough) ht hp
  exact ⟨j, u, v, hj, hbound.trans hle, hserves⟩

/-- Settles O39: a transaction without `we` is a read, and each of the sixteen answers on `rdata`. -/
theorem readsHaveNoSideEffect : Obligations.ReadsHaveNoSideEffect := by
  intro w s hread hptr
  rw [decodeBus, if_neg (by simp [hread])]
  exact exec_decodeRead hptr (busIndex w)

end Sys2Proof.Machine

/-! # Proofs for 30_encoding.md: the decoder and the encoder, and the codes of the transitions

`decode` checks a code's value, reads its fields, and checks the operands; `decode_eq_ok` says so once. Each format's decoder then
has one lemma that reads its encoder's code back and one that encodes what it has read, and every operation is in one format. -/

namespace Sys2Proof

/-! ## The checks of the decoder -/

/-- A code decodes exactly where its value fits, its fields name an operation, and the operands are in range. -/
theorem decode_eq_ok {p : Params} {c : Code} {i : Instr} :
    decode p c = .ok i ↔ c.val < 2 ^ c.len ∧ decodeFields p c = .ok i ∧ i.wf p = true := by
  unfold decode
  split_ifs with hv
  · cases decodeFields p c with
    | error e => simp
    | ok j =>
      by_cases hj : j.wf p = true
      · simp only [hj, if_true, Except.ok.injEq]
        exact ⟨by rintro rfl; exact ⟨hv, rfl, hj⟩, fun h => h.2.1⟩
      · simp only [hj, if_false, reduceCtorEq, Except.ok.injEq, false_iff]
        rintro ⟨-, rfl, hi⟩
        exact hj hi
  · simp [hv]

/-- The fields of a code are read where its length is right, and name an operation where their format's decoder does. -/
theorem guard_eq_ok {P : Prop} [Decidable P] {x : Except DecodeError Instr} {e : DecodeError} {i : Instr} :
    (if P then x else .error e) = .ok i ↔ P ∧ x = .ok i := by
  split_ifs with hP <;> simp [hP]

/-- A code of a fitting value whose fields name no operation is refused for what its fields are refused for. -/
theorem decode_of_fields_error {p : Params} {c : Code} {e : DecodeError} (hv : c.val < 2 ^ c.len)
    (hf : decodeFields p c = .error e) : decode p c = .error e := by
  rw [decode, if_pos hv, hf]

/-! ## The BUS and CMD formats -/

theorem decodeBus_busWord_write (a : BitVec 4) (v : Word) : decodeBus (busWord true a v) = decodeWrite a v := by
  simp [decodeBus]

theorem decodeBus_busWord_read (a : BitVec 4) (v : Word) : decodeBus (busWord false a v) = decodeRead a := by
  simp [decodeBus]

theorem decode_busCode (p : Params) (t : BusWord) : decode p (busCode t) = .ok (decodeBus t) := by
  refine decode_eq_ok.mpr ⟨busCode_fits t, ?_, decodeBus_wf p t⟩
  simp [decodeFields, busCode]

theorem decode_encodeWrite (p : Params) (a : BitVec 4) (v : Word) : decode p (encodeWrite a v) = .ok (decodeWrite a v) := by
  rw [encodeWrite, decode_busCode, decodeBus_busWord_write]

theorem decode_encodeRead (p : Params) (a : BitVec 4) : decode p (encodeRead a) = .ok (decodeRead a) := by
  rw [encodeRead, decode_busCode, decodeBus_busWord_read]

/-- Every value above 2 is a reserved command (30_encoding.md R92). -/
theorem decodeCommand_of_two_lt {v : Word} (h : 2 < v.toNat) : decodeCommand v = .cmdReserved v := by
  have hne {k : Word} (hk : k.toNat ≤ 2) : v ≠ k := fun hv => by
    subst hv
    omega
  rw [decodeCommand, if_neg (hne (by decide)), if_neg (hne (by decide)), if_neg (hne (by decide))]

theorem busWe_ofNat_iff {v : Nat} (h : v < 2 ^ 37) : busWe (BitVec.ofNat 37 v) = true ↔ 2 ^ 36 ≤ v := by
  rw [busWe, BitVec.getLsbD_ofNat, decide_eq_true (by decide : 36 < 37), Bool.true_and,
    Nat.testBit_eq_decide_div_mod_eq, decide_eq_true_eq]
  omega

/-- What a transaction decodes to encodes to it; of a read, to the transaction with wdata 0 (R90). -/
theorem encode_decodeBus (p : Params) (t : BusWord) :
    encode p (decodeBus t) = busCode (if busWe t then t else busWord false (busIndex t) 0#32) := by
  unfold decodeBus
  split_ifs with hw
  · rw [encode_decodeWrite, encodeWrite, ← hw, busWord_fields]
  · rw [encode_decodeRead, encodeRead]

/-- A transaction as a number: its fields, each at its place (R90). -/
theorem busWord_toNat (we : Bool) (a : BitVec 4) (v : Word) :
    (busWord we a v).toNat = we.toNat * 2 ^ 36 + a.toNat * 2 ^ 32 + v.toNat := by
  have ha : (BitVec.ofBool we ++ a).toNat = we.toNat * 2 ^ 4 + a.toNat := by
    rw [BitVec.toNat_append, ← Nat.shiftLeft_add_eq_or_of_lt a.isLt, Nat.shiftLeft_eq, BitVec.toNat_ofBool]
  have hv : (busWord we a v).toNat = (BitVec.ofBool we ++ a).toNat * 2 ^ 32 + v.toNat := by
    rw [← Nat.shiftLeft_eq, Nat.shiftLeft_add_eq_or_of_lt v.isLt]
    exact BitVec.toNat_append (BitVec.ofBool we ++ a) v
  rw [hv, ha, Nat.add_mul, Nat.mul_assoc, ← Nat.pow_add]

/-- Dropping wdata clears the low 32 bits. -/
theorem busWord_read_toNat {v : Nat} (h : v < 2 ^ 36) :
    (busWord false (busIndex (BitVec.ofNat 37 v)) 0#32).toNat = v / 2 ^ 32 * 2 ^ 32 := by
  have ha : (busIndex (BitVec.ofNat 37 v)).toNat = v / 2 ^ 32 := by
    rw [busIndex, BitVec.extractLsb'_toNat, Nat.shiftRight_eq_div_pow, BitVec.toNat_ofNat]
    omega
  rw [busWord_toNat, ha, Bool.toNat_false, Nat.zero_mul, Nat.zero_add, BitVec.toNat_ofNat, Nat.zero_mod, Nat.add_zero]

theorem encode_decodeBus_ofNat (p : Params) {v : Nat} (hv : v < 2 ^ 37) :
    encode p (decodeBus (BitVec.ofNat 37 v)) =
      { fmt := .bus, len := 37, val := if v < 2 ^ 36 then v / 2 ^ 32 * 2 ^ 32 else v } := by
  rw [encode_decodeBus]
  by_cases hread : v < 2 ^ 36
  · rw [if_neg (by rw [busWe_ofNat_iff hv]; omega), if_pos hread, busCode, busWord_read_toNat hread]
  · rw [if_pos ((busWe_ofNat_iff hv).mpr (Nat.le_of_not_lt hread)), if_neg hread, busCode, BitVec.toNat_ofNat, Nat.mod_eq_of_lt hv]

/-! ## The FSM format -/

theorem encode_fsmRow (p : Params) : ∀ r ∈ fsmRows, encode p r.2 = encodeFsm r.1 := by
  simp [fsmRows, encode]

theorem wf_fsmRow (p : Params) : ∀ r ∈ fsmRows, r.2.wf p = true := by
  simp [fsmRows, Instr.wf]

theorem fsmRow_lt : ∀ r ∈ fsmRows, r.1 < 2 ^ 7 := by decide

/-- A code reads as a transition exactly where the table has a row of the two (R101). -/
theorem decodeFsm_eq_ok {v : Nat} {i : Instr} : decodeFsm v = .ok i ↔ (v, i) ∈ fsmRows := by
  have hrows : ∀ r ∈ fsmRows, decodeFsm r.1 = .ok r.2 := by simp [fsmRows, decodeFsm, List.lookup]
  refine ⟨fun h => ?_, hrows (v, i)⟩
  unfold decodeFsm at h
  split at h
  · rename_i hv
    cases h
    obtain ⟨_, _, hsplit, -⟩ := List.lookup_eq_some_iff.mp hv
    simp [hsplit]
  · cases h

/-- Of all operations the eleven transitions are those of the FSM format, each in its row. -/
theorem mem_fsmRows_of_encode_fmt {p : Params} {i : Instr} (h : (encode p i).fmt = .fsm) : ((encode p i).val, i) ∈ fsmRows := by
  cases i <;> cases h <;> simp [encode, encodeFsm, fsmRows]

theorem decode_encode_fsm {p : Params} {i : Instr} (h : (encode p i).fmt = .fsm) : decode p (encode p i) = .ok i := by
  have hr := mem_fsmRows_of_encode_fmt h
  rw [encode_fsmRow p _ hr]
  exact decode_eq_ok.mpr ⟨encodeFsm_fits (fsmRow_lt _ hr), decodeFsm_eq_ok.mpr hr, wf_fsmRow p _ hr⟩

/-! ## The EVT format -/

theorem decodeFields_encodeEvt (p : Params) (tag : Nat) {w arg : Nat} (ha : arg < 2 ^ w) :
    decodeFields p (encodeEvt tag w arg) = decodeEvt p w tag arg := by
  have hdiv : (tag * 2 ^ w + arg) / 2 ^ w = tag := by
    rw [Nat.mul_comm, Nat.mul_add_div (Nat.two_pow_pos w), Nat.div_eq_of_lt ha, Nat.add_zero]
  simp [decodeFields, encodeEvt, hdiv, Nat.mod_eq_of_lt ha]

theorem decode_encodeEvt {p : Params} {tag w arg : Nat} {i : Instr} (ht : tag < 8) (ha : arg < 2 ^ w)
    (hdec : decodeEvt p w tag arg = .ok i) (hi : i.wf p = true) : decode p (encodeEvt tag w arg) = .ok i :=
  decode_eq_ok.mpr ⟨encodeEvt_fits ht ha, (decodeFields_encodeEvt p tag ha).trans hdec, hi⟩

/-- What tag and argument decode to encodes to them, by the tag. -/
theorem encode_of_decodeEvt {p : Params} {w tag arg : Nat} {i : Instr} (ha : arg < 2 ^ w) (h : decodeEvt p w tag arg = .ok i) :
    encode p i = encodeEvt tag w arg := by
  unfold decodeEvt at h
  split at h
  case h_7 => cases h
  all_goals
    split_ifs at h with hw
    cases h
    subst hw
  · rw [Nat.lt_one_iff.mp ha, encode]
  · rw [encode, BitVec.toNat_ofNat, Nat.mod_eq_of_lt ha]
  · rw [encode]
  · rw [encode, BitVec.toNat_ofNat, Nat.mod_eq_of_lt ha]
  · interval_cases arg <;> rfl
  · rw [encode, BitVec.toNat_ofNat, Nat.mod_eq_of_lt ha]

/-- Tag and argument of an event code are the two parts of its value. -/
theorem encodeEvt_div_mod (w v : Nat) : encodeEvt (v / 2 ^ w) w (v % 2 ^ w) = { fmt := .evt, len := w + 3, val := v } := by
  rw [encodeEvt, Nat.div_add_mod']

/-! ## The ENC format -/

/-- What a label reads as: the function its bit `f` names (R106). -/
theorem decodeEnc_encodeEnc (f : Nat) (i : BitVec 4) (x : BitVec 16) :
    decodeEnc (encodeEnc f i x).val = if f = 0 then .encPlaneBit i x else .encPlaneRow i x := by
  obtain ⟨v, hv⟩ : ∃ v, v = (encodeEnc f i x).val := ⟨_, rfl⟩
  have hval : v = f * 2 ^ 20 + i.toNat * 2 ^ 16 + x.toNat := hv
  have hi := i.isLt
  have hx := x.isLt
  have hfun : v / 2 ^ 20 = f := by omega
  have hplane : BitVec.ofNat 4 (v / 2 ^ 16) = i := BitVec.eq_of_toNat_eq (by rw [BitVec.toNat_ofNat]; omega)
  have hoperand : BitVec.ofNat 16 v = x := BitVec.eq_of_toNat_eq (by rw [BitVec.toNat_ofNat]; omega)
  rw [← hv, decodeEnc, hfun, hplane, hoperand]

theorem decode_encodeEnc {p : Params} {f : Nat} {i : BitVec 4} {x : BitVec 16} {op : Instr} (hf : f < 2)
    (hop : (if f = 0 then .encPlaneBit i x else .encPlaneRow i x) = op) (hwf : op.wf p = true) :
    decode p (encodeEnc f i x) = .ok op :=
  decode_eq_ok.mpr ⟨encodeEnc_fits i x hf, congrArg Except.ok ((decodeEnc_encodeEnc f i x).trans hop), hwf⟩

theorem encode_decodeEnc (p : Params) {v : Nat} (hv : v < 2 ^ 21) :
    encode p (decodeEnc v) = { fmt := .enc, len := 21, val := v } := by
  unfold decodeEnc
  split_ifs <;> simp only [encode, encodeEnc, BitVec.toNat_ofNat] <;> congr 1 <;> omega

/-! ## The opcode table's rows -/

/-- Masking a transaction masks its fields. -/
theorem busWord_and (t u : BusWord) :
    t &&& u = busWord (busWe t && busWe u) (busIndex t &&& busIndex u) (busData t &&& busData u) := by
  rw [← busWord_fields (t &&& u)]
  simp only [busWe, busIndex, busData, BitVec.getLsbD_and, BitVec.extractLsb'_and]

theorem busWord_inj {we we' : Bool} {a a' : BitVec 4} {v v' : Word} :
    busWord we a v = busWord we' a' v' ↔ we = we' ∧ a = a' ∧ v = v' := by
  refine ⟨fun h => ⟨?_, ?_, ?_⟩, by rintro ⟨rfl, rfl, rfl⟩; rfl⟩
  · simpa using congrArg busWe h
  · simpa using congrArg busIndex h
  · simpa using congrArg busData h

/-- The rows that read `we` and `a` only (R90): one for each of the 32 pairs. -/
def indexRows : List (String × BusWord × BusWord) := writeRows ++ readRows

/-- The name of the row of `indexRows` for a pair. -/
def indexName (we : Bool) (a : BitVec 4) : Option String :=
  (indexRows.find? fun r => busWord we a 0#32 == r.2.1).map (·.1)

theorem exactRows_mask (t : BusWord) : ∀ r ∈ exactRows, t &&& r.2.2 = t := by
  have hmask : ∀ r ∈ exactRows, r.2.2 = BitVec.allOnes 37 := by decide
  intro r hr
  rw [hmask r hr, BitVec.and_allOnes]

theorem indexRows_mask (t : BusWord) : ∀ r ∈ indexRows, t &&& r.2.2 = busWord (busWe t) (busIndex t) 0#32 := by
  have hmask : ∀ r ∈ indexRows, busWe r.2.2 = true ∧ busIndex r.2.2 = BitVec.allOnes 4 ∧ busData r.2.2 = 0#32 := by decide
  intro r hr
  obtain ⟨hwe, ha, hv⟩ := hmask r hr
  rw [busWord_and, hwe, ha, hv, Bool.and_true, BitVec.and_allOnes, BitVec.and_zero]

/-- The table's reading of a word: the three exact commands, then the row of its `we` and `a`. -/
theorem tableMnemonic_eq (t : BusWord) :
    tableMnemonic t =
      if t = busWord true 2#4 0#32 then some "CMD.NOP"
      else if t = busWord true 2#4 1#32 then some "CMD.START"
      else if t = busWord true 2#4 2#32 then some "CMD.SWAP_REQUEST"
      else indexName (busWe t) (busIndex t) := by
  have hexact : (exactRows.find? fun r => t &&& r.2.2 == r.2.1) = exactRows.find? fun r => t == r.2.1 :=
    List.find?_congr fun r hr => by rw [exactRows_mask t r hr]
  have hindex : (indexRows.find? fun r => t &&& r.2.2 == r.2.1) =
      indexRows.find? fun r => busWord (busWe t) (busIndex t) 0#32 == r.2.1 :=
    List.find?_congr fun r hr => by rw [indexRows_mask t r hr]
  have hbus : busRows = exactRows ++ indexRows := List.append_assoc ..
  have h0 : busWord true 2#4 0#32 = 0x1200000000#37 := by decide
  have h1 : busWord true 2#4 1#32 = 0x1200000001#37 := by decide
  have h2 : busWord true 2#4 2#32 = 0x1200000002#37 := by decide
  rw [tableMnemonic, hbus, List.find?_append, hexact, hindex, h0, h1, h2, exactRows]
  simp only [List.find?_cons, List.find?_nil, indexName]
  split_ifs <;> simp [beq_false_of_ne, *]

theorem indexName_read : ∀ a : BitVec 4, indexName false a = some (mnemonic (decodeRead a)) := by decide

theorem indexName_write : ∀ a : BitVec 4, indexName true a = some (mnemonic (decodeWrite a 3#32)) := by decide

/-- Only the value written to CMD selects among operations (R92). -/
theorem mnemonic_decodeWrite {a : BitVec 4} (ha : a ≠ 2#4) (v w : Word) :
    mnemonic (decodeWrite a v) = mnemonic (decodeWrite a w) := by
  obtain ⟨k, hk⟩ := a
  change k < 16 at hk
  interval_cases k
  on_goal 3 => exact absurd rfl ha
  all_goals rfl

/-! ## The obligations on the decoder -/

/-- Settles O9, by the format of the operation: a bus operation by its index, a transition by its row, an event by its tag. -/
theorem decodeEncodeRoundTrip : Obligations.DecodeEncodeRoundTrip := by
  intro p i hi
  cases i with
  | cmdReserved v =>
    have hv : 2 < v.toNat := of_decide_eq_true hi
    exact (decode_encodeWrite p 2 v).trans (congrArg Except.ok (decodeCommand_of_two_lt hv))
  | evtDeactivateLines => exact decode_encodeEvt (by decide) (by decide) rfl hi
  | evtActivateLine n => exact decode_encodeEvt (by decide) n.isLt (by simp [decodeEvt]) hi
  | evtShiftOutPlane bits => exact decode_encodeEvt (by decide) (of_decide_eq_true hi) (by simp [decodeEvt]) hi
  | evtWaitTicks n => exact decode_encodeEvt (by decide) n.isLt (by simp [decodeEvt]) hi
  | evtSweepComplete swapped => exact decode_encodeEvt (by decide) swapped.toNat_lt (by cases swapped <;> rfl) hi
  | evtHalted code => exact decode_encodeEvt (by decide) code.isLt (by simp [decodeEvt]) hi
  | encPlaneBit i v => exact decode_encodeEnc (by decide) rfl hi
  | encPlaneRow i y => exact decode_encodeEnc (by decide) rfl hi
  | fsmIdleStay | fsmBeginSweep | fsmHold | fsmNextPlane | fsmLineDone | fsmNextLine | fsmLastLine | fsmSweepEnd | fsmHaltStay
  | fsmFatalIdle | fsmFatalSweep => exact decode_encode_fsm rfl
  | cmdNop | cmdStart | cmdSwapRequest => exact decode_encodeWrite p 2 _
  | rdCtrl | rdStatus | rdCmd | rdCellAddr | rdCellData | rdMissCnt | rdGeom | rdDepth | rdTunit | rdHwLines | rdScanpos | rdHold
  | rdFaultval | rdRsv13 | rdRsv14 | rdRsv15 => exact decode_encodeRead p _
  | wrCtrl v | wrStatus v | wrCellAddr v | wrCellData v | wrMissCnt v | wrGeom v | wrDepth v | wrTunit v | wrHwLines v | wrScanpos v
  | wrHold v | wrFaultval v | wrRsv13 v | wrRsv14 v | wrRsv15 v => exact decode_encodeWrite p _ v

/-- Settles O10, by the format of the code. -/
theorem encodeDecodeIsIdentityUpToIgnoredBits : Obligations.EncodeDecodeIsIdentityUpToIgnoredBits := by
  rintro p ⟨fmt, len, v⟩ i h
  obtain ⟨hv, hfields, hi⟩ := decode_eq_ok.mp h
  refine ⟨hi, ?_⟩
  cases fmt with
  | bus =>
    obtain ⟨rfl, hbus⟩ := guard_eq_ok.mp hfields
    cases hbus
    rw [encode_decodeBus_ofNat p hv]
    simp only [true_and]
    split_ifs <;> rfl
  | fsm =>
    obtain ⟨rfl, hfsm⟩ := guard_eq_ok.mp hfields
    rw [encode_fsmRow p _ (decodeFsm_eq_ok.mp hfsm), if_neg (by simp), encodeFsm]
  | enc =>
    obtain ⟨rfl, henc⟩ := guard_eq_ok.mp hfields
    cases henc
    rw [encode_decodeEnc p hv, if_neg (by simp)]
  | evt =>
    obtain ⟨hlen, hevt⟩ := guard_eq_ok.mp hfields
    obtain ⟨w, rfl⟩ : ∃ w, len = w + 3 := ⟨len - 3, (Nat.sub_add_cancel hlen).symm⟩
    rw [encode_of_decodeEvt (Nat.mod_lt _ (Nat.two_pow_pos w)) hevt, if_neg (by simp)]
    exact encodeEvt_div_mod w v

/-- Settles O11, by `we` and the index: a write to CMD is read by the exact rows first, as `decodeCommand` reads it. -/
theorem busDecodeAgreesWithOpcodeTable : Obligations.BusDecodeAgreesWithOpcodeTable := by
  intro t
  obtain ⟨we, a, v, rfl⟩ : ∃ we a v, t = busWord we a v := ⟨_, _, _, (busWord_fields t).symm⟩
  rw [tableMnemonic_eq]
  simp only [busWord_inj, busWe_busWord, busIndex_busWord]
  cases we with
  | false => simp [decodeBus_busWord_read, indexName_read]
  | true =>
    rw [decodeBus_busWord_write]
    by_cases ha : a = 2#4
    · subst ha
      have hcmd : decodeWrite 2#4 v = decodeCommand v := rfl
      rw [hcmd, decodeCommand]
      simp only [true_and]
      split_ifs <;> rfl
    · simp [ha, indexName_write, mnemonic_decodeWrite ha v 3#32]

/-- Settles O12: each code is the encoding of its operation, which `decodeEncodeRoundTrip` reads back. -/
theorem wordsOfTheSpecDecode : Obligations.WordsOfTheSpecDecode := by
  have hread {i : Instr} (hi : i.wf Params.reference = true) := decodeEncodeRoundTrip Params.reference i hi
  exact ⟨hread (i := .wrCtrl 0xFFFFFFFF) rfl, hread (i := .wrStatus 0x21) rfl, hread (i := .wrCellAddr 0x00070007) rfl,
    hread (i := .rdCellData) rfl, hread (i := .cmdStart) rfl, hread (i := .cmdReserved 0x101) rfl,
    hread (i := .evtShiftOutPlane 0xCC) rfl, hread (i := .fsmNextPlane) rfl, hread (i := .encPlaneBit 3 10) rfl⟩

/-- Settles O13: an event is refused by its tag, a transition by the table, a length by its format, a value by its width. -/
theorem reservedCodesRefused : Obligations.ReservedCodesRefused := by
  have hevt (p : Params) {tag w arg : Nat} {e : DecodeError} (ht : tag < 8) (ha : arg < 2 ^ w)
      (he : decodeEvt p w tag arg = .error e) : decode p (encodeEvt tag w arg) = .error e :=
    decode_of_fields_error (encodeEvt_fits ht ha) ((decodeFields_encodeEvt p tag ha).trans he)
  refine ⟨fun p w arg ha => ⟨hevt p (by decide) ha rfl, hevt p (by decide) ha rfl⟩, fun p v hv hrow => ?_, fun p n v hv => ?_,
    fun p w arg ha => ?_, fun p c hc => if_neg (Nat.not_lt.mpr hc)⟩
  · exact decode_of_fields_error hv (by simp [decodeFields, decodeFsm, hrow])
  · refine ⟨fun hn => ?_, fun hn => ?_, fun hn => ?_, fun hn => ?_⟩
    · exact decode_of_fields_error hv (if_neg hn)
    · exact decode_of_fields_error hv (if_neg hn)
    · exact decode_of_fields_error hv (if_neg hn)
    · exact decode_of_fields_error hv (if_neg (Nat.not_le.mpr hn))
  · refine ⟨fun hw => ?_, fun hw => ?_, fun hw => ?_, fun hw => ?_, fun hw => ?_, fun hw => ?_⟩ <;>
      exact hevt p (by decide) ha (if_neg hw)

end Sys2Proof

namespace Sys2Proof.Machine

/-! ## The codes of the transitions -/

/-- Each row is a transition from the phase its code names first (R101). -/
theorem exec_fsmRow (s : State) :
    ∀ r ∈ fsmRows, ∃ b o, exec r.2 s = transition b o ∧ (b = true → r.1 / 16 = phaseCode s.phase) := by
  simp only [fsmRows, List.forall_mem_cons]
  refine ⟨⟨_, _, rfl, ?_⟩, ⟨_, _, rfl, ?_⟩, ⟨_, _, rfl, ?_⟩, ⟨_, _, rfl, ?_⟩, ⟨_, _, rfl, ?_⟩, ⟨_, _, rfl, ?_⟩, ⟨_, _, rfl, ?_⟩,
    ⟨_, _, rfl, ?_⟩, ⟨_, _, rfl, ?_⟩, ⟨_, _, rfl, ?_⟩, ⟨_, _, rfl, ?_⟩, List.forall_mem_nil _⟩
  all_goals
    intro hb
    simp only [Bool.and_eq_true, decide_eq_true_eq] at hb
    simp [hb, phaseCode]

/-- What the lower four bits of a transition's code say of its end (R101): the phase entered, and whether a plane was loaded. -/
def NamesItsEnd (code : Nat) (s t : State) : Prop :=
  code / 2 % 8 = phaseCode t.phase ∧
  (code % 2 = 1 →
    t.colOut = planeRow t t.line.toNat t.plane.toNat ∧ t.hold = holdTicks t.cfg t.plane.toNat ∧
    ∃ es, t.trace = s.trace ++ es ++ [.shiftOutPlane t.colOut, .waitTicks t.hold]) ∧
  (code % 2 = 0 → t.phase ≠ .halt → t.colOut = s.colOut)

/-- A code with `ld` set is that of a plane load (41_scan_fsm.md R144). -/
theorem namesItsEnd_loadPlane {code : Nat} {s u t : State} {b : Bool} (hcode : b = true → code / 2 % 8 = phaseCode u.phase)
    (hld : code % 2 = 1) (es : List Event) (hes : u.trace = s.trace ++ es)
    (h : transition b (loadPlane u) = .next t) : NamesItsEnd code s t := by
  obtain ⟨hb, hload⟩ := transition_eq_next.mp h
  obtain ⟨-, rfl⟩ := loadPlane_eq_next.mp hload
  refine ⟨hcode hb, fun _ => ⟨rfl, rfl, es, ?_⟩, fun h0 => by omega⟩
  simp [hes]

/-- A code with `ld` clear is that of a transition that keeps the column vector, or of a halt. -/
theorem namesItsEnd_of_not_load {code : Nat} {s t : State} (hcode : code / 2 % 8 = phaseCode t.phase) (hld : code % 2 = 0)
    (hcol : t.phase ≠ .halt → t.colOut = s.colOut) : NamesItsEnd code s t :=
  ⟨hcode, fun h1 => by omega, fun _ => hcol⟩

theorem haltFromPort_eq_next {s t : State} (h : haltFromPort s = .next t) : ∃ c v, t = halt c v s := by
  unfold haltFromPort at h
  split at h
  · cases h
    exact ⟨_, _, rfl⟩
  · cases h

theorem namesItsEnd_haltFromPort {code : Nat} {s t : State} {b : Bool} (hcode : code / 2 % 8 = phaseCode .halt) (hld : code % 2 = 0)
    (h : transition b (haltFromPort s) = .next t) : NamesItsEnd code s t := by
  obtain ⟨c, v, rfl⟩ := haltFromPort_eq_next (transition_eq_next.mp h).2
  exact namesItsEnd_of_not_load hcode hld fun hp => absurd rfl hp

/-- A transition that loads no plane answers the state it names. -/
theorem namesItsEnd_next {code : Nat} {s u t : State} {b : Bool} (hcode : b = true → code / 2 % 8 = phaseCode u.phase)
    (hld : code % 2 = 0) (hcol : u.colOut = s.colOut) (h : transition b (.next u) = .next t) : NamesItsEnd code s t := by
  obtain ⟨hb, hnext⟩ := transition_eq_next.mp h
  cases hnext
  exact namesItsEnd_of_not_load (hcode hb) hld fun _ => hcol

/-- The end of the eleven transitions, in the order of the table. -/
theorem namesItsEnd_fsmRow {s t : State} : ∀ r ∈ fsmRows, exec r.2 s = .next t → NamesItsEnd r.1 s t := by
  simp only [fsmRows, List.forall_mem_cons]
  refine ⟨fun h => ?_, fun h => ?_, fun h => ?_, fun h => ?_, fun h => ?_, fun h => ?_, fun h => ?_, fun h => ?_, fun h => ?_,
    fun h => ?_, fun h => ?_, List.forall_mem_nil _⟩
  · exact namesItsEnd_next (fun hb => by simp_all [phaseCode]) rfl rfl h
  · exact namesItsEnd_loadPlane (fun _ => rfl) rfl [.activateLine 0] rfl h
  · exact namesItsEnd_next (u := holdDown s) (fun hb => by simp_all [phaseCode]) rfl rfl h
  · exact namesItsEnd_loadPlane (u := { s with plane := s.plane + 1 }) (fun hb => by simp_all [phaseCode]) rfl []
      (List.append_nil _).symm h
  · exact namesItsEnd_next (u := { s with phase := .advanceLine }) (fun _ => rfl) rfl rfl h
  · exact namesItsEnd_loadPlane (fun _ => rfl) rfl [.activateLine (s.line + 1)] rfl h
  · exact namesItsEnd_next (u := { s with phase := .sweepComplete }) (fun _ => rfl) rfl rfl h
  · exact namesItsEnd_next (fun _ => by rw [endSweep_phase]; rfl) rfl (endSweep_colOut s) h
  · exact namesItsEnd_next (fun hb => by simp_all [phaseCode]) rfl rfl h
  · exact namesItsEnd_haltFromPort rfl rfl h
  · exact namesItsEnd_haltFromPort rfl rfl h

/-! ## Where a transition's condition holds -/

/-- A transition that does not itself stop as not enabled stops so exactly where its condition fails (log 6). -/
theorem transition_notEnabled_iff {b : Bool} {o : Out} {P : Prop} (ho : o ≠ .fault .transitionNotEnabled) (hb : b = true ↔ P) :
    transition b o = .fault .transitionNotEnabled ↔ ¬P := by
  rw [← hb]
  cases b <;> simp [transition, ho]

theorem loadPlane_ne_notEnabled (s : State) : loadPlane s ≠ .fault .transitionNotEnabled := by
  unfold loadPlane
  split <;> simp

theorem coordInGeometry_eq_false_iff {p : Params} {v : Word} :
    coordInGeometry p v = false ↔ p.cols ≤ v.toNat % 2 ^ 16 ∨ p.rows ≤ v.toNat / 2 ^ 16 := by
  have hx : (coordX v).toNat = v.toNat % 2 ^ 16 := by simp [coordX]
  have hy : (coordY v).toNat = v.toNat / 2 ^ 16 := by
    rw [coordY, BitVec.extractLsb'_toNat, Nat.shiftRight_eq_div_pow]
    omega
  rw [← Bool.not_eq_true, coordInGeometry, cellExists_iff, hx, hy]
  omega

theorem linesMismatch_iff {s : State} (hc : s.cfg.Legal) : linesMismatch s = true ↔ s.hwLines.toNat ≠ s.cfg.rows := by
  obtain ⟨-, hrows, -⟩ := hc
  rw [linesMismatch, decide_eq_true_eq, ne_eq, ← BitVec.toNat_inj, BitVec.toNat_ofNat, Nat.mod_eq_of_lt (by omega)]

/-- The transaction on the port is one that halts (60_exceptions.md R240): a bad coordinate, or a START with a wrong line count. -/
def PortIsFatal (s : State) : Prop :=
  (∃ v : Word, s.port = busWord true 3 v ∧ (s.cfg.cols ≤ v.toNat % 2 ^ 16 ∨ s.cfg.rows ≤ v.toNat / 2 ^ 16)) ∨
    (s.port = busWord true 2 1 ∧ s.run = false ∧ s.hwLines.toNat ≠ s.cfg.rows)

theorem portFatal_eq_none_iff {s : State} (hc : s.cfg.Legal) : portFatal s = none ↔ ¬PortIsFatal s := by
  have hcoord : (s.port = busWord true 3 (busData s.port) ∧ coordInGeometry s.cfg (busData s.port) = false) ↔
      ∃ v : Word, s.port = busWord true 3 v ∧ (s.cfg.cols ≤ v.toNat % 2 ^ 16 ∨ s.cfg.rows ≤ v.toNat / 2 ^ 16) := by
    rw [coordInGeometry_eq_false_iff]
    refine ⟨fun h => ⟨_, h⟩, ?_⟩
    rintro ⟨v, hv, hout⟩
    rw [hv, busData_busWord]
    exact ⟨rfl, hout⟩
  rw [portFatal, PortIsFatal, ← hcoord, ← linesMismatch_iff hc]
  split_ifs with hcell hstart
  · exact iff_of_false nofun fun h => h (.inl hcell)
  · exact iff_of_false nofun fun h => h (.inr hstart)
  · exact iff_of_true rfl (not_or.mpr ⟨hcell, hstart⟩)

/-- A FATAL row stops as not enabled outside its phase, and where the port carries nothing fatal (log 6). -/
theorem fatal_notEnabled_iff {s : State} (hc : s.cfg.Legal) (ph : Phase) :
    transition (decide (s.phase = ph)) (haltFromPort s) = .fault .transitionNotEnabled ↔ ¬(s.phase = ph ∧ PortIsFatal s) := by
  have hport : haltFromPort s = .fault .transitionNotEnabled ↔ ¬PortIsFatal s := by
    rw [← portFatal_eq_none_iff hc, haltFromPort]
    cases portFatal s <;> simp
  by_cases hp : s.phase = ph <;> simp [transition, hp, hport]

/-! ## The obligations on the transitions -/

/-- Settles O26: an operation of the FSM format is a row of the table; `exec_fsmRow` gives the phase it leaves, `namesItsEnd_fsmRow`
the rest. -/
theorem transitionCodesNameTheirPhases : Obligations.TransitionCodesNameTheirPhases := by
  intro p i s t hfmt h
  have hrow := mem_fsmRows_of_encode_fmt hfmt
  obtain ⟨b, o, hexec, hfrom⟩ := exec_fsmRow s _ hrow
  exact ⟨hfrom (transition_eq_next.mp (hexec.symm.trans h)).1, namesItsEnd_fsmRow _ hrow h⟩

/-- Settles O27: outside its phase a row's condition fails by `exec_fsmRow`; then row by row, the two FATAL rows by what the port
carries. -/
theorem transitionOutsideItsPhaseIsNoMove : Obligations.TransitionOutsideItsPhaseIsNoMove := by
  refine ⟨fun p i s hfmt hphase => ?_, fun s hc => ?_⟩
  · obtain ⟨b, o, hexec, hfrom⟩ := exec_fsmRow s _ (mem_fsmRows_of_encode_fmt hfmt)
    have hb : b = false := eq_false_of_ne_true fun hb => hphase (hfrom hb)
    rw [hexec, hb]
    rfl
  · have ⟨hrows, _, _, _, hn, _⟩ := hc
    exact ⟨transition_notEnabled_iff nofun (by simp),
      transition_notEnabled_iff (loadPlane_ne_notEnabled _) (by simp),
      transition_notEnabled_iff nofun (by simp),
      transition_notEnabled_iff (loadPlane_ne_notEnabled _) (by simp [and_assoc]; omega),
      transition_notEnabled_iff nofun (by simp [and_assoc]; omega),
      transition_notEnabled_iff (loadPlane_ne_notEnabled _) (by simp; omega),
      transition_notEnabled_iff nofun (by simp; omega),
      transition_notEnabled_iff nofun (by simp),
      transition_notEnabled_iff nofun (by simp),
      fatal_notEnabled_iff hc .idle,
      fatal_notEnabled_iff hc .sweepPlane⟩

end Sys2Proof.Machine

/-! # Proofs for 40_bitplane_encoder.md: the planes of a value, the rows of a line, and the lit time of a cell

A value is known plane by plane through its low bits: `v mod 2^(i+1)` adds plane `i` to `v mod 2^i`. The same sum counts ticks, each plane
being held `T_UNIT * 2^i` of them, so a run is followed with `litLeft`, the tick intervals in which a cell is still to be lit in the sweep,
beside `ticksLeft`: each tick takes off both what it lit, and a transaction that does not halt leaves both alone. -/

namespace Sys2Proof.Machine

/-! ## The planes of a value -/

theorem planeBit_eq_testBit (v : Cell) (i : Nat) : planeBit v i = v.toNat.testBit i := rfl

/-- Plane `i` is what the low `i + 1` bits of a value have beyond its low `i` (40_bitplane_encoder.md R125). -/
theorem mod_two_pow_succ_eq_planeBit (v : Cell) (i : Nat) :
    v.toNat % 2 ^ (i + 1) = v.toNat % 2 ^ i + (planeBit v i).toNat * 2 ^ i := by
  rw [pow_succ, Nat.mod_mul, planeBit_eq_testBit, Nat.toNat_testBit, Nat.mul_comm (2 ^ i)]

/-- The first `n` planes give the low `n` bits of a value, whatever its width. -/
theorem sum_planeBit (v : Cell) (n : Nat) :
    ((List.range n).map fun i => (planeBit v i).toNat * 2 ^ i).sum = v.toNat % 2 ^ n := by
  induction n with
  | zero => simp [Nat.mod_one]
  | succ n ih => simp [List.range_succ, ih, mod_two_pow_succ_eq_planeBit]

/-- The planes that exist do not see what a value has above its low N bits (30_encoding.md R106). -/
theorem planeBit_low {n i : Nat} (v : BitVec 16) (hi : i < n) :
    planeBit (BitVec.ofNat 16 (v.toNat % 2 ^ n)) i = planeBit v i := by
  rw [planeBit_eq_testBit, planeBit_eq_testBit, BitVec.toNat_ofNat, Nat.mod_eq_of_lt ((Nat.mod_le _ _).trans_lt v.isLt),
    Nat.testBit_mod_two_pow, decide_eq_true hi, Bool.true_and]

/-! ## The rows of a line -/

/-- A row is the only vector of its width with its lanes (40_bitplane_encoder.md R121). -/
theorem frameRow_eq_of_testBit {cols w : Nat} {f : Frame} {y i : Nat} (hw : w < 2 ^ cols)
    (h : ∀ x, x < cols → planeBit (Frame.read f (cellKey y x)) i = w.testBit x) : frameRow cols f y i = w := by
  refine Nat.eq_of_testBit_eq fun x => ?_
  by_cases hx : x < cols
  · rw [frameRow_testBit f y i hx, h x hx]
  · have hle : 2 ^ cols ≤ 2 ^ x := Nat.pow_le_pow_right (by decide) (Nat.le_of_not_lt hx)
    rw [Nat.testBit_lt_two_pow ((frameRow_lt cols f y i).trans_le hle), Nat.testBit_lt_two_pow (hw.trans_le hle)]

/-! ## The obligations on the encoder -/

/-- Settles O14: PLANE_BIT by `planeBit_low`, PLANE_ROW lane by lane. -/
theorem encoderRowsSelectBits : Obligations.EncoderRowsSelectBits := by
  refine ⟨fun i v s hi => ?_, fun i y s hi hy => ?_⟩
  · have hbit : (planeBit v i.toNat).toNat = if v.getLsbD i.toNat then 1 else 0 := by
      rw [planeBit]
      cases v.getLsbD i.toNat <;> rfl
    simp only [exec, execEncPlaneBit, inRange, hi, decide_true, if_true, planeBit_low v hi, hbit]
  · refine ⟨planeRow s y.toNat i.toNat, ?_, frameRow_lt _ _ _ _, fun x hx => frameRow_testBit _ _ _ hx⟩
    simp [exec, execEncPlaneRow, inRange, hi, hy]

/-- Settles O15: the planes of a value give its low bits, and it has no others. -/
theorem bitPlanesReconstructTheValue : Obligations.BitPlanesReconstructTheValue := by
  intro n v hv
  rw [sum_planeBit, Nat.mod_eq_of_lt hv]

/-- Settles O16: the mask of the LUT form leaves bit `i` alone, at its weight. -/
theorem lutFormEqualsMultiplexer : Obligations.LutFormEqualsMultiplexer := by
  intro v i
  rw [planeBitLut, Nat.and_two_pow, planeBit_eq_testBit]
  cases v.toNat.testBit i <;> simp

/-- Settles O17: 0 has no bit set, and the largest value has every bit below N set. -/
theorem planeRowEdgeCases : Obligations.PlaneRowEdgeCases := by
  intro p f y i _ hi
  refine ⟨fun hdark => ?_, fun hfull => ?_⟩
  · refine frameRow_eq_of_testBit (Nat.two_pow_pos _) fun x hx => ?_
    simp [hdark x hx, planeBit]
  · refine frameRow_eq_of_testBit (Nat.sub_one_lt (Nat.two_pow_pos _).ne') fun x hx => ?_
    rw [planeBit_eq_testBit, hfull x hx, Params.vMax, Nat.testBit_two_pow_sub_one, Nat.testBit_two_pow_sub_one,
      decide_eq_true hi, decide_eq_true hx]

/-! ## The lit time still to come -/

/-- In how many tick intervals of the sweep in progress cell `(x, y)` is still to be lit: in all `T_UNIT * v` before its line, in the rest
of the hold and in the planes after it on its line, in none after its line (41_scan_fsm.md R154). -/
def litLeft (s : State) (y x : Nat) : Nat :=
  if s.line.toNat < y then s.cfg.tUnit * (scanRead s y x).toNat
  else if s.line.toNat = y then
    s.hold.toNat * (planeBit (scanRead s y x) s.plane.toNat).toNat +
      s.cfg.tUnit * ((scanRead s y x).toNat - (scanRead s y x).toNat % 2 ^ (s.plane.toNat + 1))
  else 0

theorem litLeft_before_line {s : State} {y x : Nat} (h : s.line.toNat < y) :
    litLeft s y x = s.cfg.tUnit * (scanRead s y x).toNat := if_pos h

theorem litLeft_on_line {s : State} {y x : Nat} (h : s.line.toNat = y) :
    litLeft s y x = s.hold.toNat * (planeBit (scanRead s y x) s.plane.toNat).toNat +
      s.cfg.tUnit * ((scanRead s y x).toNat - (scanRead s y x).toNat % 2 ^ (s.plane.toNat + 1)) := by
  rw [litLeft, if_neg h.not_lt, if_pos h]

theorem litLeft_after_line {s : State} {y x : Nat} (h : y < s.line.toNat) : litLeft s y x = 0 := by
  rw [litLeft, if_neg h.not_gt, if_neg h.ne']

/-- Where a plane has its whole hold to come, a cell of its line is lit for what its value has in it and the planes after it. -/
theorem litLeft_of_whole_hold {s : State} {y x : Nat} (hline : s.line.toNat = y)
    (hhold : s.hold.toNat = s.cfg.tUnit * 2 ^ s.plane.toNat) :
    litLeft s y x = s.cfg.tUnit * ((scanRead s y x).toNat - (scanRead s y x).toNat % 2 ^ s.plane.toNat) := by
  have hplane := mod_two_pow_succ_eq_planeBit (scanRead s y x) s.plane.toNat
  have hle := Nat.mod_le (scanRead s y x).toNat (2 ^ (s.plane.toNat + 1))
  rw [litLeft_on_line hline, hhold, Nat.mul_assoc, ← Nat.mul_add, Nat.mul_comm (2 ^ s.plane.toNat)]
  congr 1
  omega

/-- Where a line has just begun, its cells and those of the lines after it have their whole lit time to come. -/
theorem litLeft_of_line_begun {s : State} {y x : Nat} (hc : s.cfg.Legal) (hline : s.line.toNat ≤ y) (hplane : s.plane = 0)
    (hhold : s.hold = holdTicks s.cfg 0) : litLeft s y x = s.cfg.tUnit * (scanRead s y x).toNat := by
  have ⟨_, _, _, _, hn, _⟩ := hc
  rcases hline.lt_or_eq with hlt | heq
  · exact litLeft_before_line hlt
  · rw [litLeft_of_whole_hold heq (by rw [hhold, hplane]; exact holdTicks_toNat hc hn), hplane]
    simp [Nat.mod_one]

/-- In the last plane of a line nothing is still to come of its cells but the rest of the hold. -/
theorem litLeft_of_last_plane {s : State} {y x : Nat} (hs : BlockInv s) (hline : s.line.toNat = y) (hplane : s.plane.toNat + 1 = s.cfg.n)
    (hh : s.hold.toNat = 1) : litLeft s y x = (planeBit (scanRead s y x) s.plane.toNat).toNat := by
  obtain ⟨-, hfits⟩ := buffersFit_iff.mp hs.host.buffers s.rsel
  have hv : (scanRead s y x).toNat < 2 ^ s.cfg.n := Frame.read_lt_of_fits hfits (cellKey y x)
  rw [litLeft_on_line hline, hplane, Nat.mod_eq_of_lt hv, hh]
  simp

/-- While sweeping, the cells lit are those of the present line with a 1 in the present plane (41_scan_fsm.md R159). -/
theorem lit_eq {s : State} (hs : BlockInv s) (hp : s.phase = .sweepPlane) {y x : Nat} (hx : x < s.cfg.cols) :
    lit s y x = (decide (s.line.toNat = y) && planeBit (scanRead s y x) s.plane.toNat) := by
  obtain ⟨-, -, -, hrow, hcol⟩ := hs.pins hp
  rw [lit, hrow, hcol, onehot_testBit, planeRow, frameRow_testBit _ _ _ hx]
  by_cases hy : s.line.toNat = y
  · rw [hy, scanRead]
  · simp [hy]

theorem lit_on_line {s : State} (hs : BlockInv s) (hp : s.phase = .sweepPlane) {y x : Nat} (hx : x < s.cfg.cols)
    (hy : s.line.toNat = y) : lit s y x = planeBit (scanRead s y x) s.plane.toNat := by
  simp [lit_eq hs hp hx, hy]

theorem lit_off_line {s : State} (hs : BlockInv s) (hp : s.phase = .sweepPlane) {y x : Nat} (hx : x < s.cfg.cols)
    (hy : s.line.toNat ≠ y) : lit s y x = false := by
  simp [lit_eq hs hp hx, hy]

/-! ## What a tick lights -/

/-- A step that stays on the line need only be followed for the cells of that line. -/
theorem litLeft_eq_of_same_line {s t : State} (hs : BlockInv s) (hp : s.phase = .sweepPlane) {y x : Nat} (hx : x < s.cfg.cols)
    (hc : t.cfg = s.cfg) (hl : t.line = s.line) (hr : scanRead t y x = scanRead s y x)
    (hon : s.line.toNat = y → litLeft s y x = (planeBit (scanRead s y x) s.plane.toNat).toNat + litLeft t y x) :
    litLeft s y x = (lit s y x).toNat + litLeft t y x := by
  rcases Nat.lt_trichotomy s.line.toNat y with hlt | heq | hgt
  · rw [lit_off_line hs hp hx hlt.ne, litLeft_before_line hlt, litLeft_before_line (hl ▸ hlt), hr, hc, Bool.toNat_false, Nat.zero_add]
  · rw [lit_on_line hs hp hx heq, hon heq]
  · rw [lit_off_line hs hp hx hgt.ne', litLeft_after_line hgt, litLeft_after_line (hl ▸ hgt), Bool.toNat_false]

theorem litLeft_holdDown {s : State} (hs : BlockInv s) (hp : s.phase = .sweepPlane) {y x : Nat} (hx : x < s.cfg.cols)
    (hh : 1 < s.hold.toNat) : litLeft s y x = (lit s y x).toNat + litLeft (holdDown s) y x := by
  have hhold : s.hold.toNat = 1 + (s.hold - 1).toNat := by bv_omega
  refine litLeft_eq_of_same_line hs hp hx rfl rfl rfl fun hy => ?_
  rw [litLeft_on_line hy, litLeft_on_line (s := holdDown s) hy, hhold, Nat.add_mul, Nat.one_mul, Nat.add_assoc]
  rfl

theorem litLeft_nextPlane {s : State} (hs : BlockInv s) (hp : s.phase = .sweepPlane) {y x : Nat} (hx : x < s.cfg.cols)
    (hh : s.hold.toNat = 1) (hplane : s.plane.toNat < s.cfg.n - 1) :
    litLeft s y x = (lit s y x).toNat + litLeft (loadPlaneAt { s with plane := s.plane + 1 }) y x := by
  have hc := hs.host.legal
  have hnext := plane_succ hc hplane
  have hhold : (holdTicks s.cfg (s.plane + 1).toNat).toNat = s.cfg.tUnit * 2 ^ (s.plane + 1).toNat := holdTicks_toNat hc (by omega)
  refine litLeft_eq_of_same_line hs hp hx rfl rfl rfl fun hy => ?_
  rw [litLeft_on_line hy, litLeft_of_whole_hold (s := loadPlaneAt { s with plane := s.plane + 1 }) hy hhold, hh, Nat.one_mul, ← hnext]
  rfl

/-- In the last tick of a line its cells show their last plane; those of the lines after it have their whole lit time to come. -/
theorem litLeft_eq_of_next_line {s t : State} (hs : BlockInv s) (hp : s.phase = .sweepPlane) {y x : Nat} (hx : x < s.cfg.cols)
    (hh : s.hold.toNat = 1) (hlast : s.plane.toNat + 1 = s.cfg.n) (hc : t.cfg = s.cfg) (hl : t.line.toNat = s.line.toNat + 1)
    (hr : scanRead t y x = scanRead s y x) (hplane : t.plane = 0) (hhold : t.hold = holdTicks t.cfg 0) :
    litLeft s y x = (lit s y x).toNat + litLeft t y x := by
  rcases Nat.lt_trichotomy s.line.toNat y with hlt | heq | hgt
  · rw [lit_off_line hs hp hx hlt.ne, litLeft_before_line hlt,
      litLeft_of_line_begun (hc ▸ hs.host.legal) (hl.trans_le hlt) hplane hhold, hr, hc, Bool.toNat_false, Nat.zero_add]
  · rw [lit_on_line hs hp hx heq, litLeft_of_last_plane hs heq hlast hh, litLeft_after_line (by omega), Nat.add_zero]
  · rw [lit_off_line hs hp hx hgt.ne', litLeft_after_line hgt, litLeft_after_line (by omega), Bool.toNat_false]

theorem litLeft_nextLine {s : State} (hs : BlockInv s) (hp : s.phase = .sweepPlane) {y x : Nat} (hx : x < s.cfg.cols)
    (hh : s.hold.toNat = 1) (hplane : s.plane.toNat + 1 = s.cfg.n) (hline : s.line.toNat < s.cfg.rows - 1) :
    litLeft s y x = (lit s y x).toNat +
      litLeft (loadPlaneAt (activateLine (s.line + 1) { s with line := s.line + 1, plane := 0, phase := .sweepPlane })) y x :=
  litLeft_eq_of_next_line hs hp hx hh hplane rfl (line_succ hs.host.legal hline) rfl rfl rfl

/-- The last tick of a sweep lights what was still to be lit. -/
theorem litLeft_of_sweepEnd {s : State} (hs : BlockInv s) (hp : s.phase = .sweepPlane) {y x : Nat} (hy : y < s.cfg.rows)
    (hx : x < s.cfg.cols) (hh : s.hold.toNat = 1) (hplane : s.plane.toNat + 1 = s.cfg.n) (hline : s.cfg.rows - 1 ≤ s.line.toNat) :
    litLeft s y x = (lit s y x).toNat := by
  rcases (show y ≤ s.line.toNat by omega).lt_or_eq with hlt | heq
  · rw [lit_off_line hs hp hx hlt.ne', litLeft_after_line hlt, Bool.toNat_false]
  · rw [lit_on_line hs hp hx heq.symm, litLeft_of_last_plane hs heq.symm hplane hh]

/-- The last plane of the last line leaves the sweep its hold (41_scan_fsm.md R153). -/
theorem ticksLeft_of_sweepEnd {s : State} (hh : s.hold.toNat = 1) (hplane : s.plane.toNat + 1 = s.cfg.n)
    (hline : s.cfg.rows - 1 ≤ s.line.toNat) : ticksLeft s = 1 := by
  simp [ticksLeft, hh, hplane, Nat.sub_eq_zero_of_le hline]

/-- `t` is `n` ticks later in the sweep of `s`, cell `(x, y)` lit in `c` of them. -/
def SweepAdvances (y x n c : Nat) (s t : State) : Prop :=
  t.phase = .sweepPlane ∧ ticksLeft s = n + ticksLeft t ∧ litLeft s y x = c + litLeft t y x

/-- A tick of a sweep is its last, which lights what was still to be lit, or the sweep goes on. -/
theorem lit_tick {s t : State} (hs : BlockInv s) (hp : s.phase = .sweepPlane) {y x : Nat} (hy : y < s.cfg.rows) (hx : x < s.cfg.cols)
    (h : tick s = .next t) :
    ticksLeft s = 1 ∧ litLeft s y x = (lit s y x).toNat ∨ SweepAdvances y x 1 (lit s y x).toNat s t := by
  have hc := hs.host.legal
  have hlast (hh : s.hold.toNat ≤ 1) : s.hold.toNat = 1 := by
    obtain ⟨-, hpos, -⟩ := hs.pins hp
    omega
  have htop (hplane : s.cfg.n - 1 ≤ s.plane.toNat) : s.plane.toNat + 1 = s.cfg.n := by
    obtain ⟨-, hlt⟩ := hs.scan
    omega
  rcases tick_cases h with ⟨hne, -⟩ | ⟨hne, -⟩ | ⟨hne, -⟩ | ⟨-, hh, rfl⟩ | ⟨-, hh, hplane, rfl⟩ |
    ⟨-, hh, hplane, hline, rfl⟩ | ⟨-, hh, hplane, hline, -⟩
  · simp [hp] at hne
  · simp [hp] at hne
  · simp [hp] at hne
  · exact .inr ⟨hp, ((Nat.add_comm _ _).trans (ticksLeft_holdDown hh)).symm, litLeft_holdDown hs hp hx hh⟩
  · exact .inr ⟨hp, ((Nat.add_comm _ _).trans (ticksLeft_nextPlane hc (hlast hh) hplane)).symm,
      litLeft_nextPlane hs hp hx (hlast hh) hplane⟩
  · exact .inr ⟨rfl, ((Nat.add_comm _ _).trans (ticksLeft_nextLine hc (hlast hh) (htop hplane) hline)).symm,
      litLeft_nextLine hs hp hx (hlast hh) (htop hplane) hline⟩
  · exact .inl ⟨ticksLeft_of_sweepEnd (hlast hh) (htop hplane) hline, litLeft_of_sweepEnd hs hp hy hx (hlast hh) (htop hplane) hline⟩

/-! ## Lit time along a run -/

/-- A transaction that does not halt takes no time and changes no cell of the read side (20_memory.md R62). -/
theorem sweepAdvances_busEffect {s t : State} (h : BusEffect s t) (hp : s.phase = .sweepPlane) (ht : t.phase ≠ .halt) (y x : Nat) :
    SweepAdvances y x 0 0 s t := by
  cases h with
  | halt => exact absurd rfl ht
  | store => simp [SweepAdvances, hp, ticksLeft, litLeft, scanRead, buffer_cellWrite_readSide]
  | _ => exact ⟨hp, (Nat.zero_add _).symm, (Nat.zero_add _).symm⟩

/-- One step of a sweep: its last tick, or the sweep goes on, by one tick where the step is a tick. -/
theorem lit_step {s t : State} (hs : BlockInv s) (hp : s.phase = .sweepPlane) {y x : Nat} (hy : y < s.cfg.rows) (hx : x < s.cfg.cols)
    (hr : nextEvent s.inputs ≠ .reset) (h : step s = .next t) (ht : t.phase ≠ .halt) :
    nextEvent s.inputs = .tick ∧ ticksLeft s = 1 ∧ litLeft s y x = (lit s y x).toNat ∨
      SweepAdvances y x (if nextEvent s.inputs = .tick then 1 else 0)
        (if nextEvent s.inputs = .tick then (lit s y x).toNat else 0) s t := by
  rcases step_cases hs h with ⟨he, htick⟩ | hreset | ⟨he, q, heffect⟩
  · rw [if_pos he, if_pos he]
    exact (lit_tick hs.dropEvent hp hy hx htick).imp_left fun hlast => ⟨he, hlast⟩
  · exact absurd hreset hr
  · rw [if_neg he, if_neg he]
    exact .inr (sweepAdvances_busEffect heffect hp ht y x)

theorem litCount_succ {k : Nat} {s u : State} (y x : Nat) (h : step s = .next u) :
    litCount (k + 1) s y x = (if nextEvent s.inputs = .tick then (lit s y x).toNat else 0) + litCount k u y x := by
  rw [litCount, h]

/-- Only ticks end intervals. -/
theorem litCount_of_no_tick {k : Nat} {s t : State} (y x : Nat) (hs : BlockInv s) (hk : ticksIn k s.inputs = 0)
    (h : Host.Core.run Sys2Proof.core k s = .next t) : litCount k s y x = 0 := by
  induction k generalizing s with
  | zero => rfl
  | succ k ih =>
    obtain ⟨u, hu, hinv, hin, hrest⟩ := run_succ_cases hs h
    obtain ⟨he, hk'⟩ := Nat.add_eq_zero_iff.mp hk
    have hne : nextEvent s.inputs ≠ .tick := by simpa using he
    rw [litCount_succ y x hu, if_neg hne, ih hinv (by rwa [hin]) hrest]

theorem ticksLeft_pos {s : State} (hs : BlockInv s) (hp : s.phase = .sweepPlane) : 0 < ticksLeft s := by
  obtain ⟨-, hpos, -⟩ := hs.pins hp
  rw [ticksLeft]
  omega

/-- Along a run that has the ticks the sweep still takes, and does not end in HALT, a cell is lit as often as was still to come. -/
theorem litCount_eq_litLeft {k : Nat} {s t : State} (hs : BlockInv s) (hp : s.phase = .sweepPlane) {y x : Nat} (hy : y < s.cfg.rows)
    (hx : x < s.cfg.cols) (hr : ∀ e ∈ s.inputs.take k, e ≠ .reset) (hk : ticksIn k s.inputs = ticksLeft s)
    (h : Host.Core.run Sys2Proof.core k s = .next t) (ht : t.phase ≠ .halt) : litCount k s y x = litLeft s y x := by
  induction k generalizing s with
  | zero => exact absurd hk (ticksLeft_pos hs hp).ne
  | succ k ih =>
    obtain ⟨u, hu, hinv, hin, hrest⟩ := run_succ_cases hs h
    obtain ⟨he, hr'⟩ := forall_take_succ (E := (· ≠ .reset)) nofun hr
    obtain ⟨hcfg, -⟩ := stepTakesOneEventAndKeepsParameters s u hu
    rw [← hin] at hr'
    have hu' : u.phase ≠ .halt := fun hhalt => ht (halt_of_run hinv hr' hhalt hrest)
    rw [ticksIn, ← hin] at hk
    rw [litCount_succ y x hu]
    rcases lit_step hs hp hy hx he hu hu' with ⟨htick, hlast, hlit⟩ | ⟨hpu, hticks, hlit⟩
    · rw [if_pos htick] at hk ⊢
      rw [litCount_of_no_tick y x hinv (by omega) hrest, hlit, Nat.add_zero]
    · rw [hticks] at hk
      rw [ih hinv hpu (hcfg ▸ hy) (hcfg ▸ hx) hr' (Nat.add_left_cancel hk) hrest, hlit]

/-! ## The obligation on the lit time -/

/-- Settles O32: at the beginning of a sweep its whole period and the whole lit time of every cell are to come, and `litCount_eq_litLeft`
follows both to the end. -/
theorem litTimeIsLinearInTheCellValue : Obligations.LitTimeIsLinearInTheCellValue := by
  intro s k y x hs hstart hy hx hr hk
  have hc := hs.host.legal
  have ⟨hp, hline, hplane, hhold⟩ := hstart
  obtain ⟨t, ht⟩ := exists_next_run hs k
  refine ⟨t, ht, fun hticks => not_halt_of_run_ticks hs hticks (by simp [hp]) ht, fun hnot => ?_⟩
  calc litCount k s y x = litLeft s y x :=
        litCount_eq_litLeft hs hp hy hx (List.forall_mem_ne'.mpr hr) (hk.trans (ticksLeft_of_sweepStart hc hstart).symm) ht hnot
    _ = s.cfg.tUnit * (scanRead s y x).toNat := litLeft_of_line_begun hc (by simp [hline]) hplane hhold

end Sys2Proof.Machine

/-! # Proofs for 41_scan_fsm.md: the transitions, the tick step as their chain, and the laws of a sweep

Each FSM row has one equation where its condition holds, and the tick step one per branch of R141; the statements on single transitions and on
the chain follow from these. A run through a sweep is followed with `ticksLeft`: a tick within the sweep takes one off it and keeps the roles
(`sweep_tick_cases`), a transaction that does not halt leaves it alone, and where one is left the tick ends the sweep and begins the next. -/

namespace Sys2Proof.Machine

/-! ## What each transition does where its condition holds (30_encoding.md R101) -/

theorem transition_of_enabled {b : Bool} (o : Out) (h : b = true) : transition b o = o := if_pos h

theorem exec_fsmIdleStay {s : State} (hp : s.phase = .idle) (hrun : s.run = false) : exec .fsmIdleStay s = .next s :=
  transition_of_enabled _ (by simp [hp, hrun])

theorem exec_fsmBeginSweep {s : State} (hp : s.phase = .idle) (hrun : s.run = true) : exec .fsmBeginSweep s = beginSweep s :=
  transition_of_enabled _ (by simp [hp, hrun])

theorem exec_fsmHold {s : State} (hp : s.phase = .sweepPlane) (hh : 1 < s.hold.toNat) : exec .fsmHold s = .next (holdDown s) :=
  transition_of_enabled _ (by simp [hp, hh])

theorem exec_fsmNextPlane {s : State} (hp : s.phase = .sweepPlane) (hh : s.hold.toNat = 1) (hplane : s.plane.toNat < s.cfg.n - 1) :
    exec .fsmNextPlane s = nextPlane s :=
  transition_of_enabled _ (by simp [hp, hh, hplane])

theorem exec_fsmLineDone {s : State} (hp : s.phase = .sweepPlane) (hh : s.hold.toNat = 1) (hplane : s.plane.toNat = s.cfg.n - 1) :
    exec .fsmLineDone s = .next { s with phase := .advanceLine } :=
  transition_of_enabled _ (by simp [hp, hh, hplane])

theorem exec_fsmNextLine {s : State} (hp : s.phase = .advanceLine) (hline : s.line.toNat < s.cfg.rows - 1) :
    exec .fsmNextLine s = nextLine s :=
  transition_of_enabled _ (by simp [hp, hline])

theorem exec_fsmLastLine {s : State} (hp : s.phase = .advanceLine) (hline : s.line.toNat = s.cfg.rows - 1) :
    exec .fsmLastLine s = .next { s with phase := .sweepComplete } :=
  transition_of_enabled _ (by simp [hp, hline])

theorem exec_fsmSweepEnd {s : State} (hp : s.phase = .sweepComplete) : exec .fsmSweepEnd s = .next (endSweep s) :=
  transition_of_enabled _ (by simp [hp])

theorem exec_fsmHaltStay {s : State} (hp : s.phase = .halt) : exec .fsmHaltStay s = .next s :=
  transition_of_enabled _ (by simp [hp])

/-! ## The branches of the tick step (41_scan_fsm.md R141) -/

theorem tick_of_idle {s : State} (hp : s.phase = .idle) : tick s = if s.run then beginSweep s else .next s := by
  simp only [tick, hp]

theorem tick_of_sweepPlane {s : State} (hp : s.phase = .sweepPlane) :
    tick s = if 1 < s.hold.toNat then .next (holdDown s) else planeExpired s := by
  simp only [tick, hp]

theorem tick_of_hold {s : State} (hp : s.phase = .sweepPlane) (hh : 1 < s.hold.toNat) : tick s = .next (holdDown s) :=
  (tick_of_sweepPlane hp).trans (if_pos hh)

theorem tick_of_expired {s : State} (hp : s.phase = .sweepPlane) (hh : ¬1 < s.hold.toNat) : tick s = planeExpired s :=
  (tick_of_sweepPlane hp).trans (if_neg hh)

/-! ## Plane loads that complete -/

/-- Plane 0 is held `T_UNIT` ticks (30_encoding.md R97). -/
theorem holdTicks_zero (p : Params) : holdTicks p 0 = BitVec.ofNat 32 p.tUnit := by
  simp [holdTicks]

theorem nextPlane_eq {s : State} (hc : s.cfg.Legal) (hline : s.line.toNat < s.cfg.rows) (hplane : s.plane.toNat < s.cfg.n - 1) :
    nextPlane s = .next (loadPlaneAt { s with plane := s.plane + 1 }) := by
  refine loadPlane_of_exists hline ?_
  change (s.plane + 1).toNat < s.cfg.n
  rw [plane_succ hc hplane]
  exact Nat.add_lt_of_lt_sub hplane

theorem nextLine_eq {s : State} (hc : s.cfg.Legal) (hline : s.line.toNat < s.cfg.rows - 1) :
    nextLine s =
      .next (loadPlaneAt (activateLine (s.line + 1) { s with line := s.line + 1, plane := 0, phase := .sweepPlane })) := by
  have ⟨_, _, _, _, hn, _⟩ := hc
  refine loadPlane_of_exists ?_ hn
  change (s.line + 1).toNat < s.cfg.rows
  rw [line_succ hc hline]
  exact Nat.add_lt_of_lt_sub hline

/-! ## The obligations on single transitions -/

/-- Settles O18: in IDLE without RUN and in HALT the tick step and its row keep the state. -/
theorem tickWithoutRunOrInHaltChangesNothing : Obligations.TickWithoutRunOrInHaltChangesNothing := by
  refine ⟨fun s hp hrun => ⟨?_, exec_fsmIdleStay hp hrun⟩, fun s hp => ⟨tick_of_halt hp, exec_fsmHaltStay hp⟩⟩
  simp [tick_of_idle hp, hrun]

/-- Settles O19: both sides are `BeginSweep()`, which leads to `sweepBegun`. -/
theorem beginSweepShowsLineZeroPlaneZero : Obligations.BeginSweepShowsLineZeroPlaneZero := by
  intro s hc hp hrun
  have hbegin := beginSweep_of_legal hc
  refine ⟨sweepBegun s, (exec_fsmBeginSweep hp hrun).trans hbegin, by rw [tick_of_idle hp, if_pos hrun, hbegin], ?_⟩
  have htrace := sweepBegun_trace s
  rw [holdTicks_zero, planeRow] at htrace
  rw [← htrace, ← holdTicks_zero]
  rfl

/-- Settles O20: both sides are `holdDown`, and a hold above 1 does not wrap. -/
theorem holdCountsDown : Obligations.HoldCountsDown := by
  intro s hp hh
  have hhold : (s.hold - 1).toNat + 1 = s.hold.toNat := by bv_omega
  exact ⟨s.hold - 1, hhold, exec_fsmHold hp hh, tick_of_hold hp hh⟩

/-- Settles O21: both sides are the plane load of the next plane of the line. -/
theorem expiredPlaneGivesNextPlane : Obligations.ExpiredPlaneGivesNextPlane := by
  intro s hc hp hh hline hnext
  have hplane : s.plane.toNat < s.cfg.n - 1 := Nat.lt_sub_of_add_lt hnext
  have hsucc := plane_succ hc hplane
  have hload := nextPlane_eq hc hline hplane
  have htick : tick s = nextPlane s := (tick_of_expired hp (by omega)).trans (if_pos hplane)
  refine ⟨_, (exec_fsmNextPlane hp hh hplane).trans hload, htick.trans hload, hsucc, ?_, ?_, ?_, rfl⟩
  · exact (congrArg (fun i => (holdTicks s.cfg i).toNat) hsucc).trans (holdTicks_toNat hc hnext)
  · exact congrArg (frameRow s.cfg.cols (buffer s s.rsel) s.line.toNat) hsucc
  · simp

/-- Settles O22: the two transitions into a transient phase, where their conditions hold. -/
theorem lastPlaneAndLastLineEnterTransientPhases : Obligations.LastPlaneAndLastLineEnterTransientPhases :=
  ⟨fun _ hp hh _ hplane => exec_fsmLineDone hp hh (Nat.eq_sub_of_add_eq hplane),
    fun _ hp hline => exec_fsmLastLine hp (Nat.eq_sub_of_add_eq hline)⟩

/-- Settles O23: the plane load of plane 0 of the next line. -/
theorem advanceLineActivatesNextLine : Obligations.AdvanceLineActivatesNextLine := by
  intro s hc hp hnext
  have hline : s.line.toNat < s.cfg.rows - 1 := Nat.lt_sub_of_add_lt hnext
  have hsucc := line_succ hc hline
  refine ⟨_, (exec_fsmNextLine hp hline).trans (nextLine_eq hc hline), rfl, hsucc, rfl, ?_, ?_, ?_, ?_, rfl⟩
  · exact congrArg onehot hsucc
  · exact congrArg (frameRow s.cfg.cols (buffer s s.rsel) · 0) hsucc
  · exact holdTicks_zero s.cfg
  · simp

/-- The saturating count as a number (60_exceptions.md R241). -/
theorem missNext_toNat (m : Word) : (missNext m).toNat = min (m.toNat + 1) 0xFFFFFFFF := by
  rw [missNext, BitVec.toNat_ofNat]
  omega

/-- Settles O24: the two branches of `endSweep`. -/
theorem sweepEndSwapsOrCountsMiss : Obligations.SweepEndSwapsOrCountsMiss := by
  intro s hp
  refine ⟨fun hreq => ?_, fun hfree => ⟨missNext s.missCnt, missNext_toNat _, ?_⟩⟩
  · simp [exec_fsmSweepEnd hp, endSweep, hreq, emit]
  · simp [exec_fsmSweepEnd hp, endSweep, hfree, emit]

/-! ## The tick step as a chain of transitions -/

theorem execAll_cons_of_next {i : Instr} {s t : State} (r : List Instr) (h : exec i s = .next t) :
    execAll (i :: r) s = execAll r t := by
  rw [execAll, h, andThen_next]

theorem execAll_singleton (i : Instr) (s : State) : execAll [i] s = exec i s := andThen_pure _

/-- `SweepComplete()` is SWEEP_END and the BEGIN_SWEEP of the next sweep (41_scan_fsm.md R149). -/
theorem sweepComplete_eq_execAll {s : State} (hp : s.phase = .sweepComplete) (hrun : s.run = true) :
    sweepComplete s = execAll [.fsmSweepEnd, .fsmBeginSweep] s := by
  rw [execAll_cons_of_next _ (exec_fsmSweepEnd hp), execAll_singleton,
    exec_fsmBeginSweep (endSweep_phase s) ((endSweep_run s).trans hrun), sweepComplete]

/-- `AdvanceLine()` is NEXT_LINE, or on the last line LAST_LINE and the end of the sweep (R148). -/
theorem advanceLine_eq_execAll {s : State} (hp : s.phase = .advanceLine) (hrun : s.run = true) (hline : s.line.toNat < s.cfg.rows) :
    advanceLine s = execAll (if s.line.toNat < s.cfg.rows - 1 then [.fsmNextLine]
      else [.fsmLastLine, .fsmSweepEnd, .fsmBeginSweep]) s := by
  rw [advanceLine]
  split_ifs with hnext
  · rw [execAll_singleton, exec_fsmNextLine hp hnext]
  · rw [execAll_cons_of_next _ (exec_fsmLastLine hp (by omega))]
    exact sweepComplete_eq_execAll rfl hrun

/-- `PlaneExpired()` is NEXT_PLANE, or on the last plane LINE_DONE and then the transitions of `AdvanceLine()` (R147). -/
theorem planeExpired_eq_execAll {s : State} (hp : s.phase = .sweepPlane) (hrun : s.run = true) (hh : s.hold.toNat = 1)
    (hline : s.line.toNat < s.cfg.rows) (hplane : s.plane.toNat < s.cfg.n) :
    planeExpired s = execAll (if s.plane.toNat < s.cfg.n - 1 then [.fsmNextPlane]
      else if s.line.toNat < s.cfg.rows - 1 then [.fsmLineDone, .fsmNextLine]
      else [.fsmLineDone, .fsmLastLine, .fsmSweepEnd, .fsmBeginSweep]) s := by
  rw [planeExpired]
  by_cases hnext : s.plane.toNat < s.cfg.n - 1
  · rw [if_pos hnext, if_pos hnext, execAll_singleton, exec_fsmNextPlane hp hh hnext]
  · have hdone := exec_fsmLineDone hp hh (by omega)
    rw [if_neg hnext, if_neg hnext]
    refine (advanceLine_eq_execAll (s := { s with phase := .advanceLine }) rfl hrun hline).trans ?_
    rw [← execAll_cons_of_next _ hdone]
    congr 1
    split_ifs <;> rfl

/-- Settles O25, by the branch of R141 that the scan position selects. -/
theorem tickIsChainOfTransitions : Obligations.TickIsChainOfTransitions := by
  intro s hs
  have ⟨_, _, hsettled, ⟨hline, hplane⟩, hpins, _⟩ := hs
  rcases hsettled with hp | hp | hp <;> simp only [tickRows, hp]
  · rw [tick_of_idle hp]
    split_ifs with hrun
    · rw [execAll_singleton, exec_fsmBeginSweep hp hrun]
    · rw [execAll_singleton, exec_fsmIdleStay hp (eq_false_of_ne_true hrun)]
  · obtain ⟨hrun, hpos, -⟩ := hpins hp
    by_cases hh : 1 < s.hold.toNat
    · rw [if_pos hh, tick_of_hold hp hh, execAll_singleton, exec_fsmHold hp hh]
    · have hlast : s.hold.toNat = 1 := Nat.le_antisymm (Nat.le_of_not_lt hh) hpos
      rw [if_neg hh, tick_of_expired hp hh]
      exact planeExpired_eq_execAll hp hrun hlast hline hplane
  · rw [tick_of_halt hp, execAll_singleton, exec_fsmHaltStay hp]

/-! ## The events of a sweep, counted -/

/-- The first `m` planes of a line are held `T_UNIT * (2^m - 1)` ticks (41_scan_fsm.md R145). -/
theorem sum_wait_planeEvents {p : Params} (hc : p.Legal) (f : Frame) (y : Nat) {m : Nat} (hm : m ≤ p.n) :
    (((List.range m).flatMap (planeEvents p f y)).map Event.wait).sum = p.tUnit * (2 ^ m - 1) := by
  induction m with
  | zero => simp
  | succ m ih =>
    have hstep : 2 ^ m - 1 + 2 ^ m = 2 ^ (m + 1) - 1 := by
      have := Nat.two_pow_pos m
      rw [pow_succ]
      omega
    simp only [List.range_succ, List.flatMap_append, List.map_append, List.sum_append, ih (Nat.le_of_succ_le hm)]
    simp [planeEvents, Event.wait, holdTicks_toNat hc hm, ← Nat.mul_add, hstep]

theorem sum_wait_lineEvents {p : Params} (hc : p.Legal) (f : Frame) (y : Nat) :
    ((lineEvents p f y).map Event.wait).sum = p.tLine := by
  simp [lineEvents, Event.wait, sum_wait_planeEvents hc f y le_rfl, Params.tLine]

theorem length_lineEvents (p : Params) (f : Frame) (y : Nat) : (lineEvents p f y).length = 1 + 2 * p.n := by
  simp [lineEvents, planeEvents, Nat.mul_comm, Nat.add_comm]

/-- Settles O31: every line takes `T_LINE` ticks and `1 + 2N` events. -/
theorem waitsOfASweepSumToItsPeriod : Obligations.WaitsOfASweepSumToItsPeriod := by
  intro p f swapped hc
  constructor
  · simp [sweepEvents, List.flatMap, List.sum_flatten, Function.comp_def, sum_wait_lineEvents hc, Event.wait, Params.tSweep]
  · simp [sweepEvents, length_lineEvents]

/-! ## What a tick depends on -/

/-- Two states that a tick cannot tell apart, RUN and the end of a sweep aside (41_scan_fsm.md R155). -/
structure SameScan (a b : State) : Prop where
  cfg : a.cfg = b.cfg
  phase : a.phase = b.phase
  line : a.line = b.line
  plane : a.plane = b.plane
  hold : a.hold = b.hold
  rowEn : a.rowEn = b.rowEn
  colOut : a.colOut = b.colOut
  rsel : a.rsel = b.rsel
  readSide : buffer a a.rsel = buffer b b.rsel

/-- What the end of a sweep reads of the host's side: the request, and with one pending the buffer it promotes (20_memory.md R72). -/
def SamePromotion (a b : State) : Prop :=
  a.swapReq = b.swapReq ∧ (a.swapReq = true → buffer a (!a.rsel) = buffer b (!b.rsel))

/-- Where both operations complete, their next states are alike. -/
def SameScanAfter (o₁ o₂ : Out) : Prop := ∀ t₁ t₂, o₁ = .next t₁ → o₂ = .next t₂ → SameScan t₁ t₂

theorem sameScanAfter_next {a b : State} (h : SameScan a b) : SameScanAfter (.next a) (.next b) := by
  rintro _ _ ⟨⟩ ⟨⟩
  exact h

/-- Where two states take the same branch, it is enough to compare branch with branch. -/
theorem sameScanAfter_ite {P Q : Prop} [Decidable P] [Decidable Q] {o₁ o₂ p₁ p₂ : Out} (hPQ : P ↔ Q)
    (hpos : P → SameScanAfter o₁ p₁) (hneg : ¬P → SameScanAfter o₂ p₂) :
    SameScanAfter (if P then o₁ else o₂) (if Q then p₁ else p₂) := by
  by_cases h : P
  · rw [if_pos h, if_pos (hPQ.mp h)]
    exact hpos h
  · rw [if_neg h, if_neg (hPQ.not.mp h)]
    exact hneg h

theorem SameScan.enter {a b : State} (h : SameScan a b) (ph : Phase) : SameScan { a with phase := ph } { b with phase := ph } :=
  ⟨h.cfg, rfl, h.line, h.plane, h.hold, h.rowEn, h.colOut, h.rsel, h.readSide⟩

theorem SameScan.holdDown {a b : State} (h : SameScan a b) : SameScan (holdDown a) (holdDown b) :=
  ⟨h.cfg, h.phase, h.line, h.plane, congrArg (· - 1) h.hold, h.rowEn, h.colOut, h.rsel, h.readSide⟩

/-- A plane load shows the read side at the scan position, and reads nothing else (R144). -/
theorem SameScan.loadPlane {a b : State} (h : SameScan a b) : SameScanAfter (loadPlane a) (loadPlane b) := by
  intro t₁ t₂ h₁ h₂
  obtain ⟨-, rfl⟩ := loadPlane_eq_next.mp h₁
  obtain ⟨-, rfl⟩ := loadPlane_eq_next.mp h₂
  exact ⟨h.cfg, h.phase, h.line, h.plane, by simp [h.cfg, h.plane], h.rowEn,
    by simp [planeRow, h.cfg, h.line, h.plane, h.readSide], h.rsel, h.readSide⟩

theorem SameScan.beginSweep {a b : State} (h : SameScan a b) : SameScanAfter (beginSweep a) (beginSweep b) :=
  SameScan.loadPlane ⟨h.cfg, rfl, rfl, rfl, h.hold, rfl, h.colOut, h.rsel, h.readSide⟩

theorem SameScan.nextPlane {a b : State} (h : SameScan a b) : SameScanAfter (nextPlane a) (nextPlane b) :=
  SameScan.loadPlane ⟨h.cfg, h.phase, h.line, congrArg (· + 1) h.plane, h.hold, h.rowEn, h.colOut, h.rsel, h.readSide⟩

theorem SameScan.nextLine {a b : State} (h : SameScan a b) : SameScanAfter (nextLine a) (nextLine b) :=
  SameScan.loadPlane ⟨h.cfg, rfl, congrArg (· + 1) h.line, rfl, h.hold,
    congrArg (fun n : BitVec 16 => onehot (n + 1).toNat) h.line, h.colOut, h.rsel, h.readSide⟩

theorem SameScan.endSweep {a b : State} (h : SameScan a b) (hpro : SamePromotion a b) : SameScan (endSweep a) (endSweep b) := by
  obtain ⟨hreq, hbuf⟩ := hpro
  have hside : buffer a (a.rsel != a.swapReq) = buffer b (b.rsel != b.swapReq) := by
    cases hq : a.swapReq with
    | false => simpa [← hreq, hq] using h.readSide
    | true => simpa [← hreq, hq] using hbuf hq
  exact ⟨by simp [h.cfg], by simp, by simp [h.line], by simp [h.plane], by simp [h.hold], by simp [h.rowEn], by simp [h.colOut],
    by simp [h.rsel, hreq], by simpa using hside⟩

theorem SameScan.advanceLine {a b : State} (h : SameScan a b) (hpro : a.cfg.rows ≤ a.line.toNat + 1 → SamePromotion a b) :
    SameScanAfter (advanceLine a) (advanceLine b) :=
  sameScanAfter_ite (by rw [h.line, h.cfg]) (fun _ => h.nextLine) fun hlast =>
    ((h.enter .sweepComplete).endSweep (hpro (Nat.le_add_of_sub_le (Nat.le_of_not_lt hlast)))).beginSweep

theorem SameScan.planeExpired {a b : State} (h : SameScan a b)
    (hpro : a.cfg.n ≤ a.plane.toNat + 1 → a.cfg.rows ≤ a.line.toNat + 1 → SamePromotion a b) :
    SameScanAfter (planeExpired a) (planeExpired b) :=
  sameScanAfter_ite (by rw [h.plane, h.cfg]) (fun _ => h.nextPlane) fun hlast =>
    (h.enter .advanceLine).advanceLine (hpro (Nat.le_add_of_sub_le (Nat.le_of_not_lt hlast)))

/-- Settles O33, by the branches of R141, which both states take alike. -/
theorem tickIgnoresWhatTheHostWrites : Obligations.TickIgnoresWhatTheHostWrites := by
  intro a b t₁ t₂ hcfg hphase hline hplane hhold hrow hcol hrsel hside hrun hpro h₁ h₂
  have h : SameScan a b := ⟨hcfg, hphase, hline, hplane, hhold, hrow, hcol, hrsel, hside⟩
  have hafter : SameScanAfter (tick a) (tick b) := by
    cases hp : a.phase with
    | halt =>
      rw [tick_of_halt hp, tick_of_halt (hphase ▸ hp)]
      exact sameScanAfter_next h
    | idle =>
      rw [tick_of_idle hp, tick_of_idle (hphase ▸ hp)]
      exact sameScanAfter_ite (by rw [hrun hp]) (fun _ => h.beginSweep) fun _ => sameScanAfter_next h
    | sweepPlane =>
      rw [tick_of_sweepPlane hp, tick_of_sweepPlane (hphase ▸ hp)]
      exact sameScanAfter_ite (by rw [hhold]) (fun _ => sameScanAfter_next h.holdDown) fun hh =>
        h.planeExpired (hpro hp (Nat.le_of_not_lt hh))
    | advanceLine | sweepComplete =>
      intro _ _ h₁
      simp [tick, hp] at h₁
  have ht := hafter t₁ t₂ h₁ h₂
  exact ⟨ht.phase, ht.line, ht.plane, ht.hold, ht.rowEn, ht.colOut, ht.rsel, ht.readSide⟩

/-! ## One tick and one transaction of a sweep -/

/-- The last tick of a sweep is next: the last plane of the last line expires in it. -/
def SweepEnds (s : State) : Prop :=
  s.phase = .sweepPlane ∧ s.hold = 1 ∧ s.plane.toNat + 1 = s.cfg.n ∧ s.line.toNat + 1 = s.cfg.rows

/-- The roles, the miss count, the request and both buffers are as they were. -/
def RolesKept (s t : State) : Prop :=
  t.rsel = s.rsel ∧ t.missCnt = s.missCnt ∧ t.swapReq = s.swapReq ∧ t.fb0 = s.fb0 ∧ t.fb1 = s.fb1

theorem RolesKept.trans {s t u : State} (h : RolesKept s t) (h' : RolesKept t u) : RolesKept s u := by
  obtain ⟨h1, h2, h3, h4, h5⟩ := h
  rwa [RolesKept, h1, h2, h3, h4, h5] at h'

/-- A tick of a sweep ends it and begins the next, or the sweep goes on with one tick less to come. -/
theorem sweep_tick_cases {s t : State} (hs : BlockInv s) (hp : s.phase = .sweepPlane) (h : tick s = .next t) :
    SweepEnds s ∧ t = sweepBegun (endSweep s) ∨
      t.phase = .sweepPlane ∧ ticksLeft t + 1 = ticksLeft s ∧ RolesKept s t := by
  have hc := hs.host.legal
  obtain ⟨hline, hplane⟩ := hs.scan
  obtain ⟨-, hpos, -⟩ := hs.pins hp
  rcases tick_cases h with ⟨hne, -⟩ | ⟨hne, -⟩ | ⟨hne, -⟩ | ⟨-, hh, rfl⟩ | ⟨-, hh, hnext, rfl⟩ | ⟨-, hh, hlast, hnext, rfl⟩ |
    ⟨-, hh, hlast, hend, rfl⟩
  · simp [hp] at hne
  · simp [hp] at hne
  · simp [hp] at hne
  · exact .inr ⟨hp, ticksLeft_holdDown hh, rfl, rfl, rfl, rfl, rfl⟩
  · exact .inr ⟨hp, ticksLeft_nextPlane hc (by omega) hnext, rfl, rfl, rfl, rfl, rfl⟩
  · exact .inr ⟨rfl, ticksLeft_nextLine hc (by omega) (by omega) hnext, rfl, rfl, rfl, rfl, rfl⟩
  · exact .inl ⟨⟨hp, by bv_omega, by omega, by omega⟩, rfl⟩

/-- In every phase a tick ends a sweep or leaves the roles alone (41_scan_fsm.md R157). -/
theorem tick_ends_or_keepsRoles {s t : State} (hs : BlockInv s) (h : tick s = .next t) :
    SweepEnds s ∧ t = sweepBegun (endSweep s) ∨ RolesKept s t := by
  by_cases hp : s.phase = .sweepPlane
  · exact (sweep_tick_cases hs hp h).imp_right fun ⟨_, _, hkept⟩ => hkept
  · rcases tick_cases h with ⟨-, rfl⟩ | ⟨-, -, rfl⟩ | ⟨-, -, rfl⟩ | ⟨hsweep, -⟩ | ⟨hsweep, -⟩ | ⟨hsweep, -⟩ | ⟨hsweep, -⟩
    · exact .inr ⟨rfl, rfl, rfl, rfl, rfl⟩
    · exact .inr ⟨rfl, rfl, rfl, rfl, rfl⟩
    · exact .inr ⟨rfl, rfl, rfl, rfl, rfl⟩
    all_goals exact absurd hsweep hp

theorem SweepEnds.ticksLeft_eq_one {s : State} (h : SweepEnds s) : ticksLeft s = 1 := by
  obtain ⟨-, hhold, hplane, hline⟩ := h
  exact ticksLeft_of_sweepEnd (by simp [hhold]) hplane (Nat.sub_le_of_le_add hline.ge)

/-- No transaction changes the roles, the miss count or the read side, or takes a request back (20_memory.md R62, R73). -/
theorem BusEffect.keepsReadSide {s t : State} (h : BusEffect s t) :
    t.rsel = s.rsel ∧ t.missCnt = s.missCnt ∧ buffer t s.rsel = buffer s s.rsel ∧ (s.swapReq = true → t.swapReq = true) := by
  cases h with
  | store => simp [buffer_cellWrite_readSide]
  | request => exact ⟨rfl, rfl, rfl, fun _ => rfl⟩
  | _ => exact ⟨rfl, rfl, rfl, id⟩

/-- A transaction halts, or leaves the sweep, the pins and TRACE as they are (41_scan_fsm.md R155). -/
theorem BusEffect.halts_or_keepsSweep {s t : State} (h : BusEffect s t) :
    t.phase = .halt ∨
      t.phase = s.phase ∧ ticksLeft t = ticksLeft s ∧ t.rowEn = s.rowEn ∧ t.colOut = s.colOut ∧ t.trace = s.trace := by
  cases h with
  | halt => exact .inl rfl
  | store => simp [ticksLeft]
  | _ => exact .inr ⟨rfl, rfl, rfl, rfl, rfl⟩

/-! ## The countdown of a sweep -/

/-- What is left of a sweep and what is gone, of the hold, of the planes of the line and of the lines, make up its period. -/
theorem ticksLeft_add_elapsed {s : State} (hs : BlockInv s) (hp : s.phase = .sweepPlane) :
    ticksLeft s + ((s.cfg.tUnit * 2 ^ s.plane.toNat - s.hold.toNat) + s.cfg.tUnit * (2 ^ s.plane.toNat - 1) +
      s.line.toNat * s.cfg.tLine) = s.cfg.tSweep := by
  obtain ⟨-, -, hmax, -⟩ := hs.pins hp
  obtain ⟨hline, hplane⟩ := hs.scan
  have hpow : 1 ≤ 2 ^ s.plane.toNat := Nat.one_le_two_pow
  have hle : 2 ^ s.plane.toNat ≤ 2 ^ s.cfg.n := Nat.pow_le_pow_right (by decide) hplane.le
  have hplanes := ticks_from_plane s.cfg hplane
  have hthis : s.cfg.tUnit * (2 ^ s.cfg.n - 2 ^ s.plane.toNat) + s.cfg.tUnit * (2 ^ s.plane.toNat - 1) = s.cfg.tLine := by
    rw [← Nat.mul_add, Params.tLine]
    congr 1
    omega
  have hlines : (s.cfg.rows - 1 - s.line.toNat) * s.cfg.tLine + s.cfg.tLine + s.line.toNat * s.cfg.tLine = s.cfg.tSweep := by
    rw [← Nat.succ_mul, ← Nat.add_mul, Params.tSweep]
    congr 1
    omega
  rw [ticksLeft]
  omega

/-- A sweep has its whole period to come only where it begins (41_scan_fsm.md R153). -/
theorem sweepStart_iff_ticksLeft {s : State} (hs : BlockInv s) (hp : s.phase = .sweepPlane) :
    sweepStart s ↔ ticksLeft s = s.cfg.tSweep := by
  refine ⟨ticksLeft_of_sweepStart hs.host.legal, fun h => ?_⟩
  have ⟨_, _, _, _, hn, _, hunit, _⟩ := hs.host.legal
  obtain ⟨-, -, hmax, -⟩ := hs.pins hp
  have helapsed := ticksLeft_add_elapsed hs hp
  have hzero : s.plane.toNat = 0 := by
    by_contra hne
    have hpow := Nat.one_lt_two_pow hne
    have hpos := Nat.mul_pos hunit (Nat.sub_pos_of_lt hpow)
    omega
  have hline : s.line.toNat = 0 := by
    by_contra hne
    have htLine : 0 < s.cfg.tLine := Nat.mul_pos hunit (Nat.sub_pos_of_lt (Nat.one_lt_two_pow (by omega)))
    have hpos := Nat.mul_pos (Nat.pos_of_ne_zero hne) htLine
    omega
  have hhold : s.hold.toNat = (holdTicks s.cfg 0).toNat := by
    rw [holdTicks_toNat hs.host.legal hn]
    rw [hzero] at hmax helapsed
    omega
  exact ⟨hp, BitVec.eq_of_toNat_eq hline, BitVec.eq_of_toNat_eq hzero, BitVec.eq_of_toNat_eq hhold⟩

/-- `t` is `n` ticks later in the sweep of `s`: the same read side is shown, and a request is still pending (20_memory.md R73, R75). -/
structure SweepGoesOn (n : Nat) (s t : State) : Prop where
  phase : t.phase = .sweepPlane
  ticks : ticksLeft s = n + ticksLeft t
  rsel : t.rsel = s.rsel
  readSide : buffer t t.rsel = buffer s s.rsel
  missCnt : t.missCnt = s.missCnt
  request : s.swapReq = true → t.swapReq = true

theorem SweepGoesOn.refl {s : State} (hp : s.phase = .sweepPlane) : SweepGoesOn 0 s s :=
  ⟨hp, (Nat.zero_add _).symm, rfl, rfl, rfl, id⟩

theorem SweepGoesOn.trans {m n : Nat} {s t u : State} (h : SweepGoesOn m s t) (h' : SweepGoesOn n t u) : SweepGoesOn (m + n) s u :=
  ⟨h'.phase, by rw [h.ticks, h'.ticks, Nat.add_assoc], h'.rsel.trans h.rsel, h'.readSide.trans h.readSide,
    h'.missCnt.trans h.missCnt, h'.request ∘ h.request⟩

/-- One step of a sweep that does not halt: its last tick, or the sweep goes on, by one tick where the step is a tick. -/
theorem sweep_step_cases {s t : State} (hs : BlockInv s) (hp : s.phase = .sweepPlane) (hr : nextEvent s.inputs ≠ .reset)
    (h : step s = .next t) (ht : t.phase ≠ .halt) :
    nextEvent s.inputs = .tick ∧ ticksLeft s = 1 ∧ t = sweepBegun (endSweep { s with inputs := s.inputs.tail }) ∨
      SweepGoesOn (if nextEvent s.inputs = .tick then 1 else 0) s t ∧ (nextEvent s.inputs = .tick → RolesKept s t) := by
  rcases step_cases hs h with ⟨he, htick⟩ | hreset | ⟨he, q, heffect⟩
  · rw [if_pos he]
    rcases sweep_tick_cases hs.dropEvent hp htick with ⟨hends, rfl⟩ | ⟨hpt, hticks, hkept⟩
    · exact .inl ⟨he, SweepEnds.ticksLeft_eq_one (s := s) hends, rfl⟩
    · obtain ⟨hrsel, hmiss, hreq, h0, h1⟩ := hkept
      have hside : buffer t t.rsel = buffer s s.rsel := hrsel ▸ buffer_eq_of_fields h0 h1 t.rsel
      exact .inr ⟨⟨hpt, ((Nat.add_comm _ _).trans hticks).symm, hrsel, hside, hmiss, hreq.trans⟩,
        fun _ => ⟨hrsel, hmiss, hreq, h0, h1⟩⟩
  · exact absurd hreset hr
  · obtain ⟨hrsel, hmiss, hside, hreq⟩ := heffect.keepsReadSide
    obtain ⟨hpt, hticks, -⟩ := heffect.halts_or_keepsSweep.resolve_left ht
    rw [if_neg he]
    exact .inr ⟨⟨hpt.trans hp, ((Nat.zero_add _).trans hticks).symm, hrsel, hrsel ▸ hside, hmiss, hreq⟩,
      fun htick => absurd htick he⟩

/-- Where one tick is left it ends the sweep, and the next one begins. -/
theorem step_of_last_tick {s : State} (hs : BlockInv s) (hp : s.phase = .sweepPlane) (hone : ticksLeft s = 1)
    (he : nextEvent s.inputs = .tick) : step s = .next (sweepBegun (endSweep { s with inputs := s.inputs.tail })) := by
  obtain ⟨t, ht⟩ := exists_next_tick hs.dropEvent
  have hstep : step s = .next t := by rw [step_eq_arrive hs.host.legal, he, arrive, ht]
  rcases sweep_tick_cases hs.dropEvent hp ht with ⟨-, rfl⟩ | ⟨hpt, hticks, -⟩
  · exact hstep
  · have hpos := ticksLeft_pos (blockInv_tick hs.dropEvent ht) hpt
    change ticksLeft t + 1 = ticksLeft s at hticks
    omega

/-! ## Runs through a sweep -/

theorem blockInv_run {k : Nat} {s t : State} (hs : BlockInv s) (h : Host.Core.run Sys2Proof.core k s = .next t) : BlockInv t :=
  run_keeps (E := fun _ => True) (P := BlockInv) trivial (fun u v hu _ _ hstep => stepKeepsInvariants u v hu hstep) hs
    (fun _ _ => trivial) hs h

theorem cfg_run {k : Nat} {s t : State} (hs : BlockInv s) (h : Host.Core.run Sys2Proof.core k s = .next t) : t.cfg = s.cfg :=
  run_keeps (E := fun _ => True) (P := (·.cfg = s.cfg)) trivial
    (fun u v _ _ hcfg hstep => (stepTakesOneEventAndKeepsParameters u v hstep).1.trans hcfg) hs (fun _ _ => trivial) rfl h

/-- A run without a reset that does not end in HALT is a step, no reset, that does not halt, and such a run on the rest of the schedule. -/
theorem run_succ_cases_of_not_halt {k : Nat} {s t : State} (hs : BlockInv s) (hr : ∀ e ∈ s.inputs.take (k + 1), e ≠ .reset)
    (h : Host.Core.run Sys2Proof.core (k + 1) s = .next t) (ht : t.phase ≠ .halt) :
    ∃ u, step s = .next u ∧ BlockInv u ∧ u.inputs = s.inputs.tail ∧ Host.Core.run Sys2Proof.core k u = .next t ∧
      nextEvent s.inputs ≠ .reset ∧ u.phase ≠ .halt ∧ ∀ e ∈ u.inputs.take k, e ≠ .reset := by
  obtain ⟨u, hu, hinv, hin, hrest⟩ := run_succ_cases hs h
  obtain ⟨he, hr'⟩ := forall_take_succ (E := (· ≠ .reset)) nofun hr
  rw [← hin] at hr'
  exact ⟨u, hu, hinv, hin, hrest, he, fun hhalt => ht (halt_of_run hinv hr' hhalt hrest), hr'⟩

/-- Along a run with fewer ticks than the sweep still takes, that does not end in HALT, the sweep goes on; with ticks alone the request and
both buffers stay as they are too. -/
theorem sweepGoesOn_run {k : Nat} {s t : State} (hs : BlockInv s) (hp : s.phase = .sweepPlane)
    (hr : ∀ e ∈ s.inputs.take k, e ≠ .reset) (hk : ticksIn k s.inputs < ticksLeft s)
    (h : Host.Core.run Sys2Proof.core k s = .next t) (ht : t.phase ≠ .halt) :
    SweepGoesOn (ticksIn k s.inputs) s t ∧ (ticksOnly k s.inputs → RolesKept s t) := by
  induction k generalizing s with
  | zero =>
    cases h
    exact ⟨.refl hp, fun _ => ⟨rfl, rfl, rfl, rfl, rfl⟩⟩
  | succ k ih =>
    obtain ⟨u, hu, hinv, hin, hrest, he, hu', hr'⟩ := run_succ_cases_of_not_halt hs hr h ht
    rw [ticksIn, ← hin] at hk ⊢
    rcases sweep_step_cases hs hp he hu hu' with ⟨htick, hlast, -⟩ | ⟨hon, hkept⟩
    · rw [if_pos htick] at hk
      omega
    · obtain ⟨hon', hkept'⟩ := ih hinv hon.phase hr' (Nat.lt_of_add_lt_add_left (hon.ticks ▸ hk)) hrest
      refine ⟨hon.trans hon', fun hticks => ?_⟩
      obtain ⟨htick, hticks'⟩ := forall_take_succ (E := (· = .tick)) rfl hticks
      exact (hkept htick).trans (hkept' (by rwa [hin]))

/-- Along a run with just the ticks the sweep still takes, that does not end in HALT, the next sweep begins. -/
theorem sweepStart_run {k : Nat} {s t : State} (hs : BlockInv s) (hp : s.phase = .sweepPlane)
    (hr : ∀ e ∈ s.inputs.take k, e ≠ .reset) (hk : ticksIn k s.inputs = ticksLeft s)
    (h : Host.Core.run Sys2Proof.core k s = .next t) (ht : t.phase ≠ .halt) : sweepStart t := by
  induction k generalizing s with
  | zero => exact absurd hk (ticksLeft_pos hs hp).ne
  | succ k ih =>
    obtain ⟨u, hu, hinv, hin, hrest, he, hu', hr'⟩ := run_succ_cases_of_not_halt hs hr h ht
    rw [ticksIn, ← hin] at hk
    rcases sweep_step_cases hs hp he hu hu' with ⟨htick, hlast, hbegun⟩ | ⟨hon, -⟩
    · have hstart : sweepStart u := by
        rw [hbegun]
        exact ⟨rfl, rfl, rfl, rfl⟩
      have hnone : ticksIn k u.inputs = 0 := by
        rw [if_pos htick] at hk
        omega
      obtain ⟨hon, -⟩ := sweepGoesOn_run hinv hstart.1 hr' (hnone ▸ ticksLeft_pos hinv hstart.1) hrest ht
      rw [sweepStart_iff_ticksLeft (blockInv_run hinv hrest) hon.phase, cfg_run hinv hrest,
        ← ticksLeft_of_sweepStart hinv.host.legal hstart, hon.ticks, hnone, Nat.zero_add]
    · exact ih hinv hon.phase hr' (Nat.add_left_cancel (hk.trans hon.ticks)) hrest

/-! ## The obligations on steps and on sweeps -/

/-- Settles O4, by the event the step takes: a tick finds the plane it loads, and a transaction finds its cell. -/
theorem invariantStateAlwaysMoves : Obligations.InvariantStateAlwaysMoves :=
  fun _ => exists_next_step

/-- Settles O34: only the tick that ends a sweep changes the roles, and no other event takes a request back. -/
theorem rolesChangeOnlyAtSweepEnd : Obligations.RolesChangeOnlyAtSweepEnd := by
  intro s t hs hr h
  have hr' : nextEvent s.inputs ≠ .reset := by
    cases hin : s.inputs with
    | nil => nofun
    | cons e rest => simpa [hin, nextEvent] using hr
  rcases step_cases hs h with ⟨-, htick⟩ | hreset | ⟨-, q, heffect⟩
  · rcases tick_ends_or_keepsRoles hs.dropEvent htick with ⟨⟨hp, hhold, hplane, hline⟩, ht⟩ | ⟨hrsel, -, hreq, -⟩
    · have hrsel : t.rsel = (s.rsel != s.swapReq) := by rw [ht, sweepBegun_rsel, endSweep_rsel]
      have hswap : t.rsel ≠ s.rsel ↔ s.swapReq = true := by
        rw [hrsel]
        cases s.rsel <;> cases s.swapReq <;> decide
      exact ⟨fun hne => ⟨hswap.mp hne, hp, hhold, hplane, hline, by simp [ht], by simp [ht], by simp [ht], by simp [ht]⟩,
        fun hpending => .inr (hswap.mpr hpending)⟩
    · exact ⟨fun hne => absurd hrsel hne, fun hpending => .inl (hreq.trans hpending)⟩
  · exact absurd hreset hr'
  · obtain ⟨hrsel, -, -, hreq⟩ := heffect.keepsReadSide
    exact ⟨fun hne => absurd hrsel hne, fun hpending => .inl (hreq hpending)⟩

/-- Settles O60, by the event: a tick by `sweep_tick_cases`, a transaction by its effect. -/
theorem eachStepKeepsTheSweepCountdown : Obligations.EachStepKeepsTheSweepCountdown := by
  intro s hs hp hr
  obtain ⟨t, ht⟩ := exists_next_step hs
  refine ⟨ticksLeft_pos hs hp, ticksLeft_le_tSweep hs hp, sweepStart_iff_ticksLeft hs hp, t, ht, ?_⟩
  rcases step_cases hs ht with ⟨he, htick⟩ | hreset | ⟨he, q, heffect⟩
  · refine ⟨fun _ => ?_, fun hne => absurd he hne⟩
    rcases sweep_tick_cases hs.dropEvent hp htick with ⟨hends, rfl⟩ | ⟨hpt, hticks, hrsel, hmiss, -⟩
    · have hone : ticksLeft s = 1 := SweepEnds.ticksLeft_eq_one hends
      exact ⟨rfl, fun hmore => absurd hone hmore.ne', fun _ => ⟨⟨rfl, rfl, rfl, rfl⟩, by simp⟩⟩
    · have hpos := ticksLeft_pos (blockInv_tick hs.dropEvent htick) hpt
      change ticksLeft t + 1 = ticksLeft s at hticks
      exact ⟨hpt, fun _ => ⟨hticks, hrsel, hmiss⟩, fun hone => absurd hone (by omega)⟩
  · exact absurd hreset hr
  · obtain ⟨hrsel, -, hside, -⟩ := heffect.keepsReadSide
    refine ⟨fun htick => absurd htick he, fun _ => heffect.halts_or_keepsSweep.imp_right ?_⟩
    rintro ⟨hpt, hticks, hrow, hcol, htrace⟩
    exact ⟨hpt.trans hp, hticks, hrsel, hrsel ▸ hside, hrow, hcol, htrace⟩

/-- Settles O29: the sweep goes on until its last tick (`sweepGoesOn_run`), which `step_of_last_tick` follows, and the next one then begins
(`sweepStart_run`). -/
theorem sweepTakesExactlyItsPeriod : Obligations.SweepTakesExactlyItsPeriod := by
  intro s k hs hstart hr
  have ⟨hp, _⟩ := hstart
  have hperiod := ticksLeft_of_sweepStart hs.host.legal hstart
  have hr' : ∀ e ∈ s.inputs.take k, e ≠ .reset := List.forall_mem_ne'.mpr hr
  obtain ⟨t, ht⟩ := exists_next_run hs k
  have hinv := blockInv_run hs ht
  refine ⟨t, ht, fun hticks => not_halt_of_run_ticks hs hticks (by simp [hp]) ht, fun hnot => ?_⟩
  have hwithin (hlt : ticksIn k s.inputs < s.cfg.tSweep) := sweepGoesOn_run hs hp hr' (hperiod ▸ hlt) ht hnot
  refine ⟨fun hpos hlt hbegun => ?_, fun heq => sweepStart_run hs hp hr' (heq.trans hperiod.symm) ht hnot, fun hlt => ?_,
    fun hone he => ?_⟩
  · have hticks := (hwithin hlt).1.ticks
    rw [hperiod, ticksLeft_of_sweepStart hinv.host.legal hbegun, cfg_run hs ht] at hticks
    omega
  · obtain ⟨hon, hkept⟩ := hwithin hlt
    refine ⟨hon.rsel, hon.readSide, hon.missCnt, hon.request, fun hticks => ?_⟩
    obtain ⟨-, -, hreq, h0, h1⟩ := hkept hticks
    exact ⟨hreq, h0, h1⟩
  · obtain ⟨hon, -⟩ := hwithin (by omega)
    have hlast : ticksLeft t = 1 := by
      have := hon.ticks
      omega
    exact ⟨_, step_of_last_tick hinv hon.phase hlast he, ⟨rfl, rfl, rfl, rfl⟩, by simp, by simp, by simp, by simp, by simp,
      by simp⟩

end Sys2Proof.Machine

/-! # Proofs for 42_gpio_sequencer.md: the pin-sequencer operations, and the trace a sweep leaves

A sweep is followed with `traceDue`: TRACE and the events of the sweep still to come. A transaction that does not halt and a tick within the
sweep leave it alone (`SweepPending`), because what is emitted is what was due; the last tick finds nothing due and emits SWEEP_COMPLETE. The
ticks to that point are `serviceTicks`, so the sweep still to begin in IDLE and the sweep in progress are one induction. -/

namespace Sys2Proof.Machine

/-! ## The obligation on the pin-sequencer operations -/

/-- Settles O37: an operand in its range passes the check of `inRange`, and the operation then writes its pins and its event. -/
theorem pinOperationsSetPinsAndEmit : Obligations.PinOperationsSetPinsAndEmit := fun _ =>
  ⟨rfl, fun _ hn => inRange_eq_next.mpr ⟨decide_eq_true hn, rfl⟩, fun _ hbits => inRange_eq_next.mpr ⟨decide_eq_true hbits, rfl⟩,
    fun _ hpos hmax => inRange_eq_next.mpr ⟨decide_eq_true ⟨hpos, hmax⟩, rfl⟩, fun _ => rfl,
    fun _ hc => inRange_eq_next.mpr ⟨decide_eq_true hc, rfl⟩⟩

/-! ## The events of a sweep still to come -/

/-- The events of all lines are those of the first plane and what is to come after it (42_gpio_sequencer.md R178). -/
theorem allLines_first_plane {p : Params} (hc : p.Legal) (f : Frame) :
    (List.range p.rows).flatMap (lineEvents p f) = .activateLine 0 :: planeEvents p f 0 0 ++ restEvents p f 0 0 := by
  obtain ⟨hrows, -, -, -, hn, -⟩ := hc
  exact List.append_cancel_right (sweepEvents_first_plane p f true hn hrows)

/-- The events of the present sweep, or in IDLE of the next one, still to come before its SWEEP_COMPLETE. -/
def eventsDue (s : State) : List Event :=
  if s.phase = .idle then (List.range s.cfg.rows).flatMap (lineEvents s.cfg (buffer s s.rsel))
  else restEvents s.cfg (buffer s s.rsel) s.line.toNat s.plane.toNat

/-- TRACE as it will be when the sweep has shown its last plane, if nothing halts. -/
def traceDue (s : State) : List Event := s.trace ++ eventsDue s

theorem eventsDue_of_idle {s : State} (hp : s.phase = .idle) :
    eventsDue s = (List.range s.cfg.rows).flatMap (lineEvents s.cfg (buffer s s.rsel)) := if_pos hp

theorem eventsDue_of_sweepPlane {s : State} (hp : s.phase = .sweepPlane) :
    eventsDue s = restEvents s.cfg (buffer s s.rsel) s.line.toNat s.plane.toNat := by
  simp [eventsDue, hp]

/-- The last plane of the last line leaves nothing to come. -/
theorem SweepEnds.traceDue_eq {s : State} (h : SweepEnds s) : traceDue s = s.trace := by
  obtain ⟨hp, -, hplane, hline⟩ := h
  rw [traceDue, eventsDue_of_sweepPlane hp, restEvents_last _ _ hplane hline, List.append_nil]

/-- Loading a plane emits its events, which were due, on the line and plane it finds (41_scan_fsm.md R144). -/
theorem traceDue_loadPlaneAt {s : State} (hp : s.phase = .sweepPlane) :
    traceDue (loadPlaneAt s) = s.trace ++ (planeEvents s.cfg (buffer s s.rsel) s.line.toNat s.plane.toNat ++
      restEvents s.cfg (buffer s s.rsel) s.line.toNat s.plane.toNat) := by
  rw [traceDue, eventsDue_of_sweepPlane (s := loadPlaneAt s) hp, loadPlaneAt_trace, List.append_assoc s.trace, List.append_assoc s.trace]
  rfl

/-- Beginning the sweep emits the first of the events due (R143). -/
theorem traceDue_sweepBegun {s : State} (hc : s.cfg.Legal) (hp : s.phase = .idle) : traceDue (sweepBegun s) = traceDue s := by
  rw [sweepBegun, traceDue_loadPlaneAt rfl, traceDue, eventsDue_of_idle hp, allLines_first_plane hc, activateLine_trace,
    List.append_assoc s.trace]
  rfl

/-- So does loading the next plane (R147). -/
theorem traceDue_nextPlane {s : State} (hc : s.cfg.Legal) (hp : s.phase = .sweepPlane) (hplane : s.plane.toNat < s.cfg.n - 1) :
    traceDue (loadPlaneAt { s with plane := s.plane + 1 }) = traceDue s := by
  rw [traceDue_loadPlaneAt (by exact hp), traceDue, eventsDue_of_sweepPlane hp,
    restEvents_next_plane _ _ _ (Nat.add_lt_of_lt_sub hplane), ← plane_succ hc hplane]
  rfl

/-- So does activating the next line and loading its first plane (R148). -/
theorem traceDue_nextLine {s : State} (hc : s.cfg.Legal) (hp : s.phase = .sweepPlane) (hplane : s.plane.toNat + 1 = s.cfg.n)
    (hline : s.line.toNat < s.cfg.rows - 1) :
    traceDue (loadPlaneAt (activateLine (s.line + 1) { s with line := s.line + 1, plane := 0, phase := .sweepPlane })) = traceDue s := by
  have ⟨_, _, _, _, hn, _⟩ := hc
  rw [traceDue_loadPlaneAt rfl, traceDue, eventsDue_of_sweepPlane hp,
    restEvents_next_line _ _ hn hplane (Nat.add_lt_of_lt_sub hline), ← line_succ hc hline, BitVec.ofNat_toNat, BitVec.setWidth_eq,
    activateLine_trace, List.append_assoc s.trace]
  rfl

/-- A tick within a sweep ends it, or emits what was due. -/
theorem traceDue_tick {s t : State} (hs : BlockInv s) (hp : s.phase = .sweepPlane) (h : tick s = .next t) :
    SweepEnds s ∧ t = sweepBegun (endSweep s) ∨ traceDue t = traceDue s := by
  have hc := hs.host.legal
  obtain ⟨hline, hplane⟩ := hs.scan
  obtain ⟨-, hpos, -⟩ := hs.pins hp
  rcases tick_cases h with ⟨hne, -⟩ | ⟨hne, -⟩ | ⟨hne, -⟩ | ⟨-, hh, rfl⟩ | ⟨-, hh, hnext, rfl⟩ | ⟨-, hh, hlast, hnext, rfl⟩ |
    ⟨-, hh, hlast, hend, rfl⟩
  · simp [hp] at hne
  · simp [hp] at hne
  · simp [hp] at hne
  · exact .inr rfl
  · exact .inr (traceDue_nextPlane hc hp hnext)
  · exact .inr (traceDue_nextLine hc hp (by omega) hnext)
  · exact .inl ⟨⟨hp, by bv_omega, by omega, by omega⟩, rfl⟩

/-! ## One step before the end of a sweep -/

/-- `t` is `n` ticks nearer to the end of the sweep of `s`: TRACE has grown by events that were due, on the same read side, and a request is
still pending. -/
structure SweepPending (n : Nat) (s t : State) : Prop where
  run : t.run = true
  ticks : serviceTicks s = n + serviceTicks t
  rsel : t.rsel = s.rsel
  request : s.swapReq = true → t.swapReq = true
  trace : traceDue t = traceDue s

/-- A tick of a started block ends a sweep and begins the next, or brings the end one tick nearer. -/
theorem sweepPending_tick {s t : State} (hs : BlockInv s) (hrun : s.run = true) (h : tick s = .next t) :
    SweepEnds s ∧ t = sweepBegun (endSweep s) ∨ SweepPending 1 s t ∧ t.swapReq = s.swapReq := by
  have hc := hs.host.legal
  rcases hs.phase_of_run hrun with hp | hp
  · rw [tick_of_idle hp, if_pos hrun] at h
    cases beginSweep_eq_next h
    have hwhole : ticksLeft (sweepBegun s) = s.cfg.tSweep := ticksLeft_of_sweepStart hc ⟨rfl, rfl, rfl, rfl⟩
    have hticks : serviceTicks s = 1 + serviceTicks (sweepBegun s) := by
      rw [serviceTicks_of_idle hp, serviceTicks_of_sweepPlane (sweepBegun_phase s), hwhole]
    exact .inr ⟨⟨hrun, hticks, rfl, id, traceDue_sweepBegun hc hp⟩, rfl⟩
  · rcases traceDue_tick hs hp h with hlast | htrace
    · exact .inl hlast
    · refine (sweep_tick_cases hs hp h).imp_right fun ⟨hpt, hticks, hrsel, _, hreq, _⟩ => ?_
      obtain ⟨hrun', -⟩ := (blockInv_tick hs h).pins hpt
      exact ⟨⟨hrun', ((Nat.add_comm _ _).trans (serviceTicks_succ hp hpt hticks)).symm, hrsel, hreq.trans, htrace⟩, hreq⟩

/-- A transaction that does not halt leaves the sweep and its trace as they are (41_scan_fsm.md R155). -/
theorem sweepPending_busEffect {s t : State} (h : BusEffect s t) (hrun : s.run = true) (ht : t.phase ≠ .halt) : SweepPending 0 s t := by
  cases h with
  | halt => exact absurd rfl ht
  | store =>
    exact ⟨by simp [hrun], by simp [serviceTicks, ticksLeft], by simp, by simp,
      by simp [traceDue, eventsDue, buffer_cellWrite_readSide]⟩
  | start => exact ⟨rfl, (Nat.zero_add _).symm, rfl, id, rfl⟩
  | request => exact ⟨hrun, (Nat.zero_add _).symm, rfl, fun _ => rfl, rfl⟩
  | _ => exact ⟨hrun, (Nat.zero_add _).symm, rfl, id, rfl⟩

/-- One step of a started block that does not halt: the last tick of a sweep, or the end comes nearer, by one tick where the step is a tick. -/
theorem sweepPending_step {s t : State} (hs : BlockInv s) (hrun : s.run = true) (hr : nextEvent s.inputs ≠ .reset)
    (h : step s = .next t) (ht : t.phase ≠ .halt) :
    nextEvent s.inputs = .tick ∧ SweepEnds s ∧ t = sweepBegun (endSweep { s with inputs := s.inputs.tail }) ∨
      SweepPending (if nextEvent s.inputs = .tick then 1 else 0) s t ∧ (nextEvent s.inputs = .tick → t.swapReq = s.swapReq) := by
  rcases step_cases hs h with ⟨he, htick⟩ | hreset | ⟨he, q, heffect⟩
  · rw [if_pos he]
    rcases sweepPending_tick hs.dropEvent hrun htick with hlast | ⟨⟨hrun', hticks, hrsel, hreq, htrace⟩, hkept⟩
    · exact .inl ⟨he, hlast⟩
    · exact .inr ⟨⟨hrun', hticks, hrsel, hreq, htrace⟩, fun _ => hkept⟩
  · exact absurd hreset hr
  · rw [if_neg he]
    obtain ⟨hrun', hticks, hrsel, hreq, htrace⟩ := sweepPending_busEffect heffect hrun ht
    exact .inr ⟨⟨hrun', hticks, hrsel, hreq, htrace⟩, fun htick => absurd htick he⟩

/-! ## Runs to the end of a sweep -/

/-- `t` shows the first plane of the next sweep: the sweep of `s` has left the events due and its SWEEP_COMPLETE, which says whether the
roles were exchanged, and a request of `s` has been served. -/
structure SweepTraced (swapped : Bool) (s t : State) : Prop where
  rsel : t.rsel = (s.rsel != swapped)
  request : s.swapReq = true → swapped = true
  trace : t.trace = traceDue s ++ .sweepComplete swapped :: .activateLine 0 :: planeEvents t.cfg (buffer t t.rsel) 0 0

theorem SweepPending.sweepTraced {n : Nat} {swapped : Bool} {s t u : State} (h : SweepPending n s t) (h' : SweepTraced swapped t u) :
    SweepTraced swapped s u :=
  ⟨h.rsel ▸ h'.rsel, h'.request ∘ h.request, h.trace ▸ h'.trace⟩

/-- The last tick of a sweep finds nothing due, says whether it exchanges the roles, and shows the first plane of the next sweep. -/
theorem SweepEnds.sweepTraced {s : State} (h : SweepEnds s) (es : List Input) :
    SweepTraced s.swapReq s (sweepBegun (endSweep { s with inputs := es })) := by
  refine ⟨by simp, id, ?_⟩
  rw [h.traceDue_eq, sweepBegun_trace, endSweep_trace, List.append_assoc]
  rfl

/-- Without a tick and without a halt nothing is added to TRACE, and the same read side is shown (41_scan_fsm.md R151). -/
theorem trace_of_no_tick {k : Nat} {s t : State} (hs : BlockInv s) (hr : ∀ e ∈ s.inputs.take k, e ≠ .reset)
    (hk : ticksIn k s.inputs = 0) (h : Host.Core.run Sys2Proof.core k s = .next t) (ht : t.phase ≠ .halt) :
    t.trace = s.trace ∧ t.rsel = s.rsel ∧ buffer t t.rsel = buffer s s.rsel := by
  induction k generalizing s with
  | zero =>
    cases h
    exact ⟨rfl, rfl, rfl⟩
  | succ k ih =>
    obtain ⟨u, hu, hinv, hin, hrest, he, hu', hr'⟩ := run_succ_cases_of_not_halt hs hr h ht
    obtain ⟨hnone, hk'⟩ := Nat.add_eq_zero_iff.mp hk
    rcases step_cases hs hu with ⟨htick, -⟩ | hreset | ⟨-, q, heffect⟩
    · simp [htick] at hnone
    · exact absurd hreset he
    · obtain ⟨hrsel, -, hside, -⟩ := heffect.keepsReadSide
      obtain ⟨-, -, -, -, htrace⟩ := heffect.halts_or_keepsSweep.resolve_left hu'
      obtain ⟨htrace', hrsel', hside'⟩ := ih hinv hr' (hin ▸ hk') hrest
      exact ⟨htrace'.trans htrace, hrsel'.trans hrsel, hside'.trans (hrsel ▸ hside)⟩

/-- Along a run with just the ticks to the end of the sweep, that does not end in HALT, the sweep leaves its trace; with ticks alone it
exchanges the roles only on a request pending at the start. -/
theorem sweepTraced_run {k : Nat} {s t : State} (hs : BlockInv s) (hrun : s.run = true) (hr : ∀ e ∈ s.inputs.take k, e ≠ .reset)
    (hk : ticksIn k s.inputs = serviceTicks s) (h : Host.Core.run Sys2Proof.core k s = .next t) (ht : t.phase ≠ .halt) :
    ∃ swapped : Bool, SweepTraced swapped s t ∧ (ticksOnly k s.inputs → swapped = s.swapReq) := by
  induction k generalizing s with
  | zero => exact absurd hk (Nat.ne_of_lt (serviceTicks_pos hs hrun))
  | succ k ih =>
    obtain ⟨u, hu, hinv, hin, hrest, he, hu', hr'⟩ := run_succ_cases_of_not_halt hs hr h ht
    rw [ticksIn, ← hin] at hk
    rcases sweepPending_step hs hrun he hu hu' with ⟨htick, hends, hbegun⟩ | ⟨hpending, hkept⟩
    · have ⟨hp, _⟩ := hends
      have hone : serviceTicks s = 1 := (serviceTicks_of_sweepPlane hp).trans hends.ticksLeft_eq_one
      rw [if_pos htick, hone] at hk
      obtain ⟨htrace, hrsel, hside⟩ := trace_of_no_tick hinv hr' (by omega) hrest ht
      obtain ⟨hroles, hreq, hleft⟩ : SweepTraced s.swapReq s u := hbegun ▸ hends.sweepTraced _
      refine ⟨s.swapReq, ⟨hrsel.trans hroles, hreq, ?_⟩, fun _ => rfl⟩
      rw [htrace, hside, cfg_run hinv hrest, hleft]
    · obtain ⟨swapped, htraced, hsilent⟩ := ih hinv hpending.run hr' (Nat.add_left_cancel (hk.trans hpending.ticks)) hrest
      refine ⟨swapped, hpending.sweepTraced htraced, fun hticks => ?_⟩
      obtain ⟨htick, hticks'⟩ := forall_take_succ (E := (· = .tick)) rfl hticks
      exact (hsilent (by rwa [hin])).trans (hkept htick)

/-! ## The obligation on the trace of a sweep -/

/-- Settles O30: in IDLE the whole sweep is due, and `sweepTraced_run` follows it to its end. -/
theorem sweepLeavesItsTrace : Obligations.SweepLeavesItsTrace := by
  intro s k hs hp hrun hr hk
  obtain ⟨t, ht⟩ := exists_next_run hs k
  refine ⟨t, ht, fun hticks => not_halt_of_run_ticks hs hticks (by simp [hp]) ht, fun hnot => ?_⟩
  obtain ⟨swapped, ⟨hrsel, hreq, htrace⟩, hsilent⟩ :=
    sweepTraced_run hs hrun (List.forall_mem_ne'.mpr hr) (hk.trans (serviceTicks_of_idle hp).symm) ht hnot
  refine ⟨swapped, hrsel, hreq, hsilent, ?_⟩
  rw [htrace, cfg_run hs ht, traceDue, eventsDue_of_idle hp]
  simp [sweepEvents]

end Sys2Proof.Machine

/-! # Proofs for 43_host_operations.md: what each host transaction reads, writes and leaves unchanged

The transaction of an index decodes by `decodeBus_busWord_read` and `decodeBus_busWord_write`. A read answers with its register's word
(`busRead`), so what is proved of it is which bits of the word are which field. A write is `busWrite` of its rule, ignored in HALT; the
two that can halt share `halt_eq`, the whole state a halt leaves. What no transaction changes is read off `BusEffect`. -/

namespace Sys2Proof.Machine

/-! ## The words that register reads return -/

/-- A field of a register is a quotient and a remainder of its value. -/
theorem extractLsb'_eq_of_toNat {w : Word} {start len : Nat} {x : BitVec len} (h : w.toNat / 2 ^ start % 2 ^ len = x.toNat) :
    w.extractLsb' start len = x := by
  apply BitVec.eq_of_toNat_eq
  rw [BitVec.extractLsb'_toNat, Nat.shiftRight_eq_div_pow, h]

/-- The low byte of STATUS, bit 0 first (10_state.md R40); bit 7 is reserved. -/
def statusFlags (s : State) : List Bool :=
  [s.sweepDone, s.swapReq, s.rsel, s.run, halted s, s.wdrop, s.cmderr, false]

theorem packBits_statusFlags_lt (s : State) : packBits (statusFlags s) < 2 ^ 8 := packBits_lt (statusFlags s)

/-- STATUS is its flags with ERR above them (43_host_operations.md R194). -/
theorem statusWord_toNat (s : State) : (statusWord s).toNat = 2 ^ 8 * s.err.toNat + packBits (statusFlags s) := by
  have herr := s.err.isLt
  have hflags := packBits_statusFlags_lt s
  rw [statusWord, BitVec.toNat_ofNat]
  simp only [statusFlags, packBits_cons, packBits_nil, Bool.toNat_false] at hflags ⊢
  omega

theorem statusWord_getLsbD (s : State) {i : Nat} (hi : i < 8) : (statusWord s).getLsbD i = (statusFlags s)[i]?.getD false := by
  rw [← BitVec.testBit_toNat, statusWord_toNat, Nat.testBit_two_pow_mul_add _ (packBits_statusFlags_lt s), if_pos hi, packBits_testBit]

theorem phaseCode_le (p : Phase) : phaseCode p ≤ 4 := by
  cases p <;> decide

theorem scanposWord_toNat (s : State) :
    (scanposWord s).toNat = s.line.toNat + 2 ^ 16 * s.plane.toNat + 2 ^ 24 * phaseCode s.phase := by
  have hline := s.line.isLt
  have hplane := s.plane.isLt
  have hphase := phaseCode_le s.phase
  rw [scanposWord, BitVec.toNat_ofNat]
  omega

theorem cellAddrWord_eq_append (s : State) : cellAddrWord s = s.cellY ++ s.cellX := by
  apply BitVec.eq_of_toNat_eq
  have hx := s.cellX.isLt
  have hy := s.cellY.isLt
  rw [cellAddrWord, BitVec.toNat_append, ← Nat.shiftLeft_add_eq_or_of_lt hx, Nat.shiftLeft_eq, BitVec.toNat_ofNat]
  omega

theorem ctrlWord_eq (s : State) : ctrlWord s = if s.ie then 1 else 0 := by
  unfold ctrlWord
  cases s.ie <;> rfl

theorem geomWord_toNat {s : State} (hc : s.cfg.Legal) : (geomWord s).toNat = s.cfg.rows * 2 ^ 16 + s.cfg.cols := by
  obtain ⟨-, hrows, -, hcols, -⟩ := hc
  rw [geomWord, BitVec.toNat_ofNat]
  omega

theorem depthWord_toNat {s : State} (hc : s.cfg.Legal) : (depthWord s).toNat = s.cfg.n := by
  obtain ⟨-, -, -, -, -, hn, -⟩ := hc
  rw [depthWord, BitVec.toNat_ofNat]
  omega

/-- T_UNIT fits a register, because the longest hold does (00_scope.md R7). -/
theorem tunitWord_toNat {s : State} (hc : s.cfg.Legal) : (tunitWord s).toNat = s.cfg.tUnit := by
  obtain ⟨-, -, -, -, -, -, -, hmax⟩ := hc
  have hle : s.cfg.tUnit ≤ s.cfg.tUnit * 2 ^ (s.cfg.n - 1) := Nat.le_mul_of_pos_right _ (Nat.two_pow_pos _)
  rw [tunitWord, BitVec.toNat_ofNat]
  omega

/-! ## The cell window (20_memory.md R62) -/

/-- The write side is the buffer that RSEL does not select. -/
theorem buffer_writeSide (s : State) : buffer s (!s.rsel) = if s.rsel then s.fb0 else s.fb1 := by
  cases s.rsel <;> rfl

theorem cellRead_eq (s : State) :
    cellRead s = Frame.read (if s.rsel then s.fb0 else s.fb1) (cellKey s.cellY.toNat s.cellX.toNat) := by
  rw [cellRead, writeSide_eq, buffer_writeSide]

/-- A store replaces the write-side buffer and no other field. -/
theorem cellWrite_eq (v : Cell) (s : State) :
    cellWrite v s =
      if s.rsel then { s with fb0 := Frame.write s.fb0 (cellKey s.cellY.toNat s.cellX.toNat) v }
      else { s with fb1 := Frame.write s.fb1 (cellKey s.cellY.toNat s.cellX.toNat) v } := by
  unfold cellWrite
  cases hrsel : s.rsel <;> simp [setBuffer, hrsel]

/-- The host reads back what it stored, the pointer and the roles being as they were (43_host_operations.md R203, R204). -/
theorem cellRead_cellWrite {s : State} (v : Cell) (hwf : Frame.wf (if s.rsel then s.fb0 else s.fb1) = true) :
    cellRead (cellWrite v s) = v := by
  rw [← buffer_writeSide] at hwf
  rw [cellRead, writeSide_eq, cellWrite_rsel, cellWrite_cellX, cellWrite_cellY, buffer_cellWrite_writeSide,
    Frame.read_write_same _ v hwf]

/-- A stored value is `v mod 2^N`: N is at most 16, so it fits a cell (30_encoding.md R94). -/
theorem cellValue_toNat {p : Params} (hc : p.Legal) (v : Word) : (cellValue p v).toNat = v.toNat % 2 ^ p.n := by
  obtain ⟨-, -, -, -, -, hn, -⟩ := hc
  have hlt : v.toNat % 2 ^ p.n < 2 ^ 16 :=
    (Nat.mod_lt _ (Nat.two_pow_pos _)).trans_le (Nat.pow_le_pow_right (by decide) hn)
  rw [cellValue, BitVec.toNat_ofNat, Nat.mod_eq_of_lt hlt]

theorem exec_rdCellData {s : State} (hptr : pointerInRange s) :
    exec .rdCellData s = .next { s with rdata := (cellRead s).setWidth 32 } :=
  withCell_eq_next.mpr ⟨cellExists_iff.mpr hptr.symm, rfl⟩

/-- The store outside HALT: dropped while a request is pending (43_host_operations.md R203). -/
theorem exec_wrCellData {s : State} (v : Word) (hp : s.phase ≠ .halt) :
    exec (.wrCellData v) s =
      if s.swapReq then .next { s with wdrop := true } else withCell (fun s => .next (cellWrite (cellValue s.cfg v) s)) s :=
  show execWrCellData v s = _ from busWrite_of_not_halt hp

theorem exec_wrCellData_stored {s : State} (v : Word) (hp : s.phase ≠ .halt) (hreq : s.swapReq = false) (hptr : pointerInRange s) :
    exec (.wrCellData v) s = .next (cellWrite (cellValue s.cfg v) s) := by
  rw [exec_wrCellData v hp, if_neg (Bool.eq_false_iff.mp hreq)]
  exact withCell_eq_next.mpr ⟨cellExists_iff.mpr hptr.symm, rfl⟩

/-! ## The checked writes and the halt -/

/-- The whole state a halt leaves: what 60_exceptions.md R244 names, and every other field as it was. -/
theorem halt_eq (c : BitVec 2) (v : Word) (s : State) :
    halt c v s = { s with
      err := c, faultVal := v, run := false, rowEn := 0, colOut := 0, hold := 0, phase := .halt
      trace := s.trace ++ [.deactivateLines, .halted c] } := by
  simp [halt, deactivateLines, emit]

theorem coordX_eq_ofNat (v : Word) : coordX v = BitVec.ofNat 16 v.toNat :=
  extractLsb'_eq_of_toNat (by rw [BitVec.toNat_ofNat, Nat.pow_zero, Nat.div_one])

theorem coordY_eq_ofNat (v : Word) : coordY v = BitVec.ofNat 16 (v.toNat / 2 ^ 16) :=
  extractLsb'_eq_of_toNat (BitVec.toNat_ofNat _ _).symm

theorem coordInGeometry_iff {p : Params} {v : Word} :
    coordInGeometry p v = true ↔ v.toNat % 2 ^ 16 < p.cols ∧ v.toNat / 2 ^ 16 < p.rows := by
  rw [← Bool.not_eq_false, coordInGeometry_eq_false_iff, not_or, Nat.not_le, Nat.not_le]

theorem exec_cmdStart {s : State} (hp : s.phase ≠ .halt) :
    exec .cmdStart s =
      .next (if s.run then s else if linesMismatch s then halt 3 s.hwLines s else { s with run := true }) :=
  show execCmdStart s = _ from busWrite_of_not_halt hp

theorem exec_wrCellAddr {s : State} (v : Word) (hp : s.phase ≠ .halt) :
    exec (.wrCellAddr v) s =
      .next (if coordInGeometry s.cfg v then { s with cellX := coordX v, cellY := coordY v } else halt 2 v s) :=
  show execWrCellAddr v s = _ from busWrite_of_not_halt hp

/-! ## What no transaction changes -/

/-- No transaction moves the scan position or sets SWEEP_DONE (43_host_operations.md R190 d). -/
theorem BusEffect.keepsPosition {s t : State} (h : BusEffect s t) :
    t.line = s.line ∧ t.plane = s.plane ∧ (t.sweepDone = true → s.sweepDone = true) := by
  cases h with
  | clear => exact ⟨rfl, rfl, Bool.and_elim_left⟩
  | store => simp
  | _ => exact ⟨rfl, rfl, id⟩

/-- A transaction either leaves the phase, the hold, the pins, the cause and TRACE as they are, or halts the block from outside HALT
(43_host_operations.md R190 d, 60_exceptions.md R244). -/
theorem BusEffect.keepsPins_or_halts {s t : State} (h : BusEffect s t) :
    (t.phase = s.phase ∧ t.hold = s.hold ∧ t.rowEn = s.rowEn ∧ t.colOut = s.colOut ∧ t.err = s.err ∧
        t.faultVal = s.faultVal ∧ t.trace = s.trace) ∨
      (s.phase ≠ .halt ∧ t.phase = .halt ∧ t.hold = 0 ∧ t.rowEn = 0 ∧ t.colOut = 0 ∧ t.run = false ∧
        (t.err = 2 ∨ t.err = 3) ∧ t.trace = s.trace ++ [.deactivateLines, .halted t.err]) := by
  cases h with
  | halt hp c v hc =>
    rw [halt_eq]
    exact .inr ⟨hp, rfl, rfl, rfl, rfl, rfl, hc, rfl⟩
  | store => simp
  | _ => exact .inl ⟨rfl, rfl, rfl, rfl, rfl, rfl, rfl⟩

/-! ## The obligations on reads -/

/-- Settles O40: a bit below 8 is a flag by `statusWord_getLsbD`, and above stands ERR alone by `statusWord_toNat`. -/
theorem statusReadShowsTheFlags : Obligations.StatusReadShowsTheFlags := by
  refine ⟨decodeBus_busWord_read 1, fun s => ⟨statusWord s, rfl, ?_⟩⟩
  have hflag {i : Nat} (hi : i < 8) := statusWord_getLsbD s hi
  have hword := statusWord_toNat s
  have hlow := packBits_statusFlags_lt s
  have herr := s.err.isLt
  refine ⟨hflag (by decide), hflag (by decide), hflag (by decide), hflag (by decide), hflag (by decide), hflag (by decide),
    hflag (by decide), hflag (by decide), extractLsb'_eq_of_toNat ?_, extractLsb'_eq_of_toNat ?_⟩
  · omega
  · rw [BitVec.ofNat_eq_ofNat, BitVec.toNat_zero]
    omega

/-- Settles O41: each field is a quotient and a remainder of `scanposWord_toNat`. -/
theorem scanposReadShowsThePosition : Obligations.ScanposReadShowsThePosition := by
  refine ⟨decodeBus_busWord_read 10, fun s => ⟨scanposWord s, rfl, ?_⟩⟩
  have hword := scanposWord_toNat s
  have hline := s.line.isLt
  have hplane := s.plane.isLt
  have hphase := phaseCode_le s.phase
  refine ⟨extractLsb'_eq_of_toNat ?_, extractLsb'_eq_of_toNat ?_, extractLsb'_eq_of_toNat ?_, extractLsb'_eq_of_toNat ?_⟩
  · omega
  · omega
  · rw [BitVec.toNat_ofNat]
    omega
  · rw [BitVec.ofNat_eq_ofNat, BitVec.toNat_zero]
    omega

/-- Settles O42, by `ctrlWord_eq` and `cellAddrWord_eq_append`. -/
theorem ctrlAndPointerReads : Obligations.CtrlAndPointerReads := by
  refine ⟨fun x => ⟨decodeBus_busWord_read 0 x, decodeBus_busWord_read 3 x⟩, fun s => ⟨?_, ?_⟩⟩
  · rw [← ctrlWord_eq]
    rfl
  · rw [← cellAddrWord_eq_append]
    rfl

/-- Settles O43: legal parameters fit their registers, COLS the lower half of GEOM. -/
theorem constantReadsShowTheParameters : Obligations.ConstantReadsShowTheParameters := by
  refine ⟨fun x => ⟨decodeBus_busWord_read 6 x, decodeBus_busWord_read 7 x, decodeBus_busWord_read 8 x⟩, fun s hc => ?_⟩
  have hgeom := geomWord_toNat hc
  have ⟨_, _, _, hcols, _⟩ := hc
  refine ⟨⟨geomWord s, rfl, ?_, ?_⟩, ⟨depthWord s, rfl, depthWord_toNat hc⟩, ⟨tunitWord s, rfl, tunitWord_toNat hc⟩⟩
  · omega
  · omega

/-- Settles O44: each of these reads is `busRead` of its register, for CMD of 0. -/
theorem plainReadsShowTheirRegister : Obligations.PlainReadsShowTheirRegister :=
  ⟨fun x => ⟨decodeBus_busWord_read 5 x, decodeBus_busWord_read 9 x, decodeBus_busWord_read 11 x, decodeBus_busWord_read 12 x,
      decodeBus_busWord_read 2 x⟩,
    fun s => ⟨busRead_eq s.missCnt s, busRead_eq s.hwLines s, busRead_eq s.hold s, busRead_eq s.faultVal s, busRead_eq 0 s⟩⟩

/-- Settles O46: the load completes by `exec_rdCellData`, and widening to the register keeps the value. -/
theorem cellDataReadReturnsWriteSideCell : Obligations.CellDataReadReturnsWriteSideCell := by
  refine ⟨decodeBus_busWord_read 4, fun s hptr => ⟨_, exec_rdCellData hptr, ?_⟩⟩
  rw [BitVec.toNat_setWidth_of_le (by decide), cellRead_eq, cellKey]

/-! ## The obligations on writes that check nothing -/

/-- Settles O45: the reads are `busRead 0` and the writes `busIgnore`. -/
theorem unmappedIndicesReadZeroAndTakeNoWrite : Obligations.UnmappedIndicesReadZeroAndTakeNoWrite :=
  ⟨fun x => ⟨decodeBus_busWord_read 13 x, decodeBus_busWord_read 14 x, decodeBus_busWord_read 15 x,
      decodeBus_busWord_write 13 x, decodeBus_busWord_write 14 x, decodeBus_busWord_write 15 x⟩,
    fun _ s => ⟨busRead_eq 0 s, busRead_eq 0 s, busRead_eq 0 s, busIgnore_eq s, busIgnore_eq s, busIgnore_eq s⟩⟩

/-- Settles O47, by the index: a write is ignored in HALT by `busWrite_of_halt`, or changes nothing anywhere. -/
theorem haltIgnoresEveryWrite : Obligations.HaltIgnoresEveryWrite := by
  intro w s hw hp
  rw [decodeBus, if_pos hw]
  refine decodeWrite_cases (P := fun i => exec i s = .next s) (busData w) ?_ ?_
    (decodeCommand_cases (P := fun i => exec i s = .next s) (busData w) rfl ?_ ?_ fun _ => ?_)
    ?_ ?_ rfl rfl rfl rfl ?_ rfl rfl rfl rfl rfl rfl (busIndex w)
  all_goals
    simp only [exec, execWrCtrl, execWrStatus, execCmdStart, execCmdSwapRequest, execCmdReserved, execWrCellAddr, execWrCellData,
      execWrHwLines]
    exact busWrite_of_halt hp

/-- Settles O48: the rule of the write, and `irq` of the state it leaves, which is not in HALT. -/
theorem ctrlWriteSetsInterruptEnable : Obligations.CtrlWriteSetsInterruptEnable := by
  intro v s hp
  refine ⟨decodeBus_busWord_write 0 v, _, show execWrCtrl v s = _ from busWrite_of_not_halt hp, rfl, ?_⟩
  simp [irq, halted, hp]

/-- Settles O49: the rule of the write is `clearFlags`, and `irq` needs SWEEP_DONE. -/
theorem statusWriteClearsWrittenOnes : Obligations.StatusWriteClearsWrittenOnes := by
  intro v s hp
  refine ⟨decodeBus_busWord_write 1 v, clearFlags v s, show execWrStatus v s = _ from busWrite_of_not_halt hp, ?_, fun hack => ?_⟩
  · simp [clearFlags, Bool.and_comm]
  · simp [irq, clearFlags, hack]

/-- Settles O50: each of these writes is `busIgnore`. -/
theorem ignoredWritesChangeNothing : Obligations.IgnoredWritesChangeNothing := by
  refine ⟨⟨decodeBus_busWord_write 2 0, fun x => ?_⟩, fun _ s => ?_⟩
  · exact ⟨decodeBus_busWord_write 5 x, decodeBus_busWord_write 6 x, decodeBus_busWord_write 7 x, decodeBus_busWord_write 8 x,
      decodeBus_busWord_write 10 x, decodeBus_busWord_write 11 x, decodeBus_busWord_write 12 x⟩
  · have hignored := busIgnore_eq s
    exact ⟨hignored, hignored, hignored, hignored, hignored, hignored, hignored, hignored⟩

/-- Settles O51: outside HALT the write does what its rule says. -/
theorem hwLinesWriteStoresTheWord : Obligations.HwLinesWriteStoresTheWord :=
  fun v s hp => ⟨decodeBus_busWord_write 9 v, show execWrHwLines v s = _ from busWrite_of_not_halt hp⟩

/-- Settles O52: both rules outside HALT; that every value above 2 is reserved is `decodeCommand_of_two_lt`. -/
theorem swapRequestAndReservedCommand : Obligations.SwapRequestAndReservedCommand := by
  intro s hp
  have hreserved (v : Word) : exec (.cmdReserved v) s = .next { s with cmderr := true } :=
    show execCmdReserved v s = _ from busWrite_of_not_halt hp
  refine ⟨decodeBus_busWord_write 2 2, show execCmdSwapRequest s = _ from busWrite_of_not_halt hp, fun v hv => ⟨?_, hreserved v⟩⟩
  have hdec : decodeBus (busWord true 2 v) = .cmdReserved v :=
    (decodeBus_busWord_write 2 v).trans (decodeCommand_of_two_lt hv)
  rw [hdec, hreserved]

/-! ## The obligations on the checked writes -/

/-- Settles O53: START's check is `linesMismatch_iff`, and a wrong count leaves `halt_eq`. -/
theorem startChecksTheLineCount : Obligations.StartChecksTheLineCount := by
  refine ⟨decodeBus_busWord_write 2 1, fun s hp => show execCmdStart s = _ from busWrite_of_halt hp, fun s hc hp => ?_⟩
  rw [exec_cmdStart hp, ← halt_eq]
  by_cases hlines : s.hwLines.toNat = s.cfg.rows
  · rw [if_pos hlines, if_neg (mt (linesMismatch_iff hc).mp (not_not.mpr hlines))]
  · rw [if_neg hlines, if_pos ((linesMismatch_iff hc).mpr hlines)]

/-- Settles O54: the check is `coordInGeometry_iff`, and a bad coordinate leaves `halt_eq`. -/
theorem cellAddrWriteChecksTheCoordinate : Obligations.CellAddrWriteChecksTheCoordinate := by
  intro v s hp
  refine ⟨decodeBus_busWord_write 3 v, ?_⟩
  simp only [exec_wrCellAddr v hp, coordInGeometry_iff, coordX_eq_ofNat, coordY_eq_ofNat, halt_eq]

/-! ## The obligations on the store and the load -/

/-- Settles O55: the store writes the buffer of `cellWrite_eq`, where the laws of one frame say what each cell reads. -/
theorem storeWritesOneWriteSideCellOrIsDropped : Obligations.StoreWritesOneWriteSideCellOrIsDropped := by
  intro v s hp
  refine ⟨decodeBus_busWord_write 4 v, fun hreq => ?_, fun hc hreq hptr hwf => ?_⟩
  · rw [exec_wrCellData v hp, if_pos hreq]
  refine ⟨Frame.write (if s.rsel then s.fb0 else s.fb1) (cellKey s.cellY.toNat s.cellX.toNat) (cellValue s.cfg v), ?_, ?_, ?_⟩
  · rw [exec_wrCellData_stored v hp hreq hptr, cellWrite_eq]
    cases s.rsel <;> rfl
  · rw [Frame.read_write_same _ _ hwf, cellValue_toNat hc]
  · exact fun k hk => Frame.read_write_other _ _ hk.symm

/-- Settles O56: the store moves no pointer, so the load reads the same cell (`cellRead_cellWrite`). -/
theorem loadReturnsWhatWasStored : Obligations.LoadReturnsWhatWasStored := by
  intro v s hc hp hreq hptr hwf
  have hptr' : pointerInRange (cellWrite (cellValue s.cfg v) s) := by simpa [pointerInRange] using hptr
  refine ⟨_, _, exec_wrCellData_stored v hp hreq hptr, exec_rdCellData hptr', ?_⟩
  rw [BitVec.toNat_setWidth_of_le (by decide), cellRead_cellWrite _ hwf, cellValue_toNat hc]

/-! ## The obligation on what no transaction changes -/

/-- Settles O58, by the effects a transaction can have. -/
theorem busStepKeepsTheScanSide : Obligations.BusStepKeepsTheScanSide := by
  intro w s t h
  have heffect := decodeBus_effect h
  obtain ⟨hline, hplane, hdone⟩ := heffect.keepsPosition
  obtain ⟨hrsel, hmiss, hbuffer, -⟩ := heffect.keepsReadSide
  exact ⟨hline, hplane, hrsel, hmiss, hbuffer, hdone, heffect.keepsPins_or_halts⟩

end Sys2Proof.Machine

/-! # Proofs for 60_exceptions.md: the interrupt line, the fatal conditions, and the halt that only a reset leaves

The two fatal conditions meet in `portFatal`: where it names a cause and a value, both the FATAL rows and the transaction itself take that halt.
In HALT the only effect of a transaction is a read's (`BusEffect.reads_of_halt`). -/

namespace Sys2Proof.Machine

/-! ## The obligation on the interrupt line -/

/-- The interrupt line as a level (60_exceptions.md R249). -/
theorem irq_eq_true_iff (s : State) : irq s = true ↔ s.sweepDone = true ∧ s.ie = true ∧ s.phase ≠ .halt := by
  simp [irq, halted, and_assoc]

/-- Settles O36: the end of a sweep sets SWEEP_DONE and leaves IE alone, in IDLE; a halt ends in HALT. -/
theorem interruptLineIsALevel : Obligations.InterruptLineIsALevel := by
  refine ⟨irq_eq_true_iff, fun s hp => ⟨endSweep s, exec_fsmSweepEnd hp, endSweep_sweepDone s, ?_⟩, fun s c v => ⟨?_, ?_⟩⟩
  · simp [irq, halted]
  · simp [irq, halted]
  · simp [halted]

/-! ## The fatal conditions (60_exceptions.md R240) -/

theorem portFatal_of_badCoordinate {s : State} {v : Word} (hport : s.port = busWord true 3 v)
    (hv : coordInGeometry s.cfg v = false) : portFatal s = some (2, v) := by
  rw [portFatal, hport, busData_busWord, if_pos ⟨rfl, hv⟩]

/-- The first condition of `portFatal` asks for another register, so START's is the one that is read. -/
theorem portFatal_of_badStart {s : State} (hport : s.port = busWord true 2 1) (hrun : s.run = false)
    (hlines : linesMismatch s = true) : portFatal s = some (3, s.hwLines) := by
  have hother : s.port ≠ busWord true 3 (busData s.port) := by
    rw [hport, busData_busWord]
    decide
  rw [portFatal, if_neg fun h => hother h.1, if_pos ⟨hport, hrun, hlines⟩]

/-- A FATAL row takes the halt of the transaction on the port, from its phase. -/
theorem fatalRow_of_portFatal {s : State} {ph : Phase} {c : BitVec 2} {v : Word} (h : portFatal s = some (c, v))
    (hp : s.phase = ph) : transition (decide (s.phase = ph)) (haltFromPort s) = .next (halt c v s) := by
  rw [transition_of_enabled _ (decide_eq_true hp), haltFromPort, h]

/-- The transaction on the port takes the halt that `portFatal` names, in every phase but HALT. -/
theorem exec_decodeBus_of_portFatal {s : State} {c : BitVec 2} {v : Word} (h : portFatal s = some (c, v))
    (hp : s.phase ≠ .halt) : exec (decodeBus s.port) s = .next (halt c v s) := by
  unfold portFatal at h
  split_ifs at h with hcell hstart
  · cases h
    obtain ⟨hport, hv⟩ := hcell
    have hdec : decodeBus s.port = .wrCellAddr (busData s.port) := by
      rw [hport, decodeBus_busWord_write, busData_busWord]
      rfl
    rw [hdec, exec_wrCellAddr _ hp, if_neg (Bool.eq_false_iff.mp hv)]
  · cases h
    obtain ⟨hport, hrun, hlines⟩ := hstart
    have hdec : decodeBus s.port = .cmdStart := by
      rw [hport, decodeBus_busWord_write]
      rfl
    rw [hdec, exec_cmdStart hp, if_neg (Bool.eq_false_iff.mp hrun), if_pos hlines]

/-- Settles O28: each fatal condition is the cause and value that `portFatal` reads off the port. -/
theorem fatalTransitionsHalt : Obligations.FatalTransitionsHalt := by
  intro s code val hcond
  have hfatal : portFatal s = some (code, val) := by
    rcases hcond with ⟨v, hport, hout, rfl, rfl⟩ | ⟨hport, hrun, hlines, rfl, rfl⟩
    · exact portFatal_of_badCoordinate hport (coordInGeometry_eq_false_iff.mpr hout)
    · exact portFatal_of_badStart hport hrun (decide_eq_true hlines)
  exact ⟨fun hp => ⟨fatalRow_of_portFatal hfatal hp, exec_decodeBus_of_portFatal hfatal (by simp [hp])⟩,
    fun hp => ⟨fatalRow_of_portFatal hfatal hp, exec_decodeBus_of_portFatal hfatal (by simp [hp])⟩⟩

/-! ## The obligation on leaving HALT -/

/-- In HALT every write is ignored, so a transaction can change the read data alone (43_host_operations.md R190 a, b). -/
theorem BusEffect.reads_of_halt {s t : State} (h : BusEffect s t) (hp : s.phase = .halt) : ∃ r : Word, t = { s with rdata := r } := by
  cases h with
  | same => exact ⟨s.rdata, rfl⟩
  | read r => exact ⟨r, rfl⟩
  | store hne => exact absurd hp hne
  | _ hne => exact absurd hp hne

theorem nextEvent_ne_reset {es : List Input} (h : es.head? ≠ some .reset) : nextEvent es ≠ .reset := by
  cases es with
  | nil => exact nofun
  | cons e rest => exact fun he => h (congrArg some he)

/-- Settles O59, by the event the step takes: a tick in HALT changes nothing, and a transaction at most the read data. -/
theorem onlyResetLeavesHalt : Obligations.OnlyResetLeavesHalt := by
  intro s hs hp hr
  obtain ⟨t, ht⟩ := exists_next_step hs
  rcases step_cases hs ht with ⟨-, htick⟩ | hreset | ⟨-, q, heffect⟩
  · cases htick.symm.trans (tick_of_halt hp)
    exact ⟨s.port, s.rdata, ht⟩
  · exact absurd hreset (nextEvent_ne_reset hr)
  · obtain ⟨r, rfl⟩ := heffect.reads_of_halt hp
    exact ⟨q, r, ht⟩

end Sys2Proof.Machine

/-! # Proofs for 70_reset_and_hazards.md: what a reset leaves

A reset step answers `resetBlock`, whatever the state. Its fields have their reset values by the laws of `resetBlock`; here stand
what is read through a function: the cells of the two buffers, and the output pins. -/

namespace Sys2Proof.Machine

/-- After a reset every cell of both buffers is 0 (10_state.md R57). -/
@[simp] theorem read_buffer_resetBlock (s : State) (b : Bool) (k : Nat) : Frame.read (buffer (resetBlock s) b) k = 0 := by
  cases b with
  | false => rfl
  | true => rfl

@[simp] theorem halted_resetBlock (s : State) : halted (resetBlock s) = false := rfl

@[simp] theorem irq_resetBlock (s : State) : irq (resetBlock s) = false := rfl

/-- A reset event is taken in every state, HALT included (60_exceptions.md R246). -/
theorem step_of_reset {s : State} {rest : List Input} (hc : s.cfg.Legal) (hin : s.inputs = .reset :: rest) :
    step s = .next (resetBlock { s with inputs := rest }) :=
  step_cons hc hin

/-- Settles O1: the step answers `resetBlock`, whose laws give every item of the table. -/
theorem resetStepRestoresEveryItem : Obligations.ResetStepRestoresEveryItem := by
  intro s rest hc hin
  refine ⟨_, step_of_reset hc hin, ?_⟩
  simp

end Sys2Proof.Machine


/-! # Proofs on where the model stops by name

Three checks stand where the spec gives no machine or no operand: the parameters (93_implementation_defined.md W1) with the decoder (W2), the
operand range of an EVT or ENC row (log 7), and the cell under the pointer (log 8). Each has one lemma that says when it stops. -/

namespace Sys2Proof.Machine

/-! ## Refused parameters and codes -/

theorem step_of_not_legal {s : State} (hc : ¬ s.cfg.Legal) : step s = .refused .illegalParameters := if_neg hc

theorem runCode_of_decode_error {c : Code} {s : State} {e : DecodeError} (h : decode s.cfg c = .error e) :
    runCode c s = .refused (.undecodable e) := by
  simp only [runCode, h]

/-- Settles O8: the parameters are checked before any event is taken, and the step of a scheduled code is `runCode`. -/
theorem illegalParametersAndCodesRefused : Obligations.IllegalParametersAndCodesRefused := by
  refine ⟨fun _ => step_of_not_legal, fun s c rest e hc hin hdec => ?_⟩
  calc step s = runCode c { s with inputs := rest } := step_cons hc hin
    _ = .refused (.undecodable e) := runCode_of_decode_error hdec

/-! ## Operands of the pin sequencer and the encoder -/

/-- The range check is the only stop of an operation that otherwise completes. -/
theorem inRange_next_eq_operandOutOfRange_iff {b : Bool} {t : State} :
    inRange b (.next t) = .fault .operandOutOfRange ↔ b = false := by
  cases b <;> simp [inRange]

/-- Every EVT and ENC row is a next state behind a range check, and the check is well-formedness of the operation; a row whose operands
are in range by their type always passes it. -/
theorem exec_eq_inRange_wf {i : Instr} {s : State} (hfmt : (encode s.cfg i).fmt = .evt ∨ (encode s.cfg i).fmt = .enc) :
    ∃ t : State, exec i s = inRange (i.wf s.cfg) (.next t) := by
  cases i with
  | evtDeactivateLines => exact ⟨deactivateLines s, rfl⟩
  | evtActivateLine n => exact ⟨activateLine n s, rfl⟩
  | evtShiftOutPlane bits => exact ⟨shiftOutPlane bits s, rfl⟩
  | evtWaitTicks n => exact ⟨waitTicks n s, rfl⟩
  | evtSweepComplete swapped => exact ⟨emit (.sweepComplete swapped) s, rfl⟩
  | evtHalted code => exact ⟨emit (.halted code) s, rfl⟩
  | encPlaneBit i v => exact ⟨_, rfl⟩
  | encPlaneRow i y => exact ⟨_, rfl⟩
  | _ => rcases hfmt with hfmt | hfmt <;> cases hfmt

/-- Settles O38: an EVT or ENC row is its guard (`exec_eq_inRange_wf`), and the guard stops exactly where it is false. -/
theorem operandOutOfRangeIsNoMove : Obligations.OperandOutOfRangeIsNoMove := by
  intro i s hfmt
  obtain ⟨t, ht⟩ := exec_eq_inRange_wf hfmt
  rw [ht, inRange_next_eq_operandOutOfRange_iff]

/-! ## A pointer that names no cell -/

theorem withCell_of_not_pointerInRange (f : State → Out) {s : State} (hptr : ¬ pointerInRange s) :
    withCell f s = .fault .cellOutsideGeometry :=
  if_neg fun hcell => hptr (cellExists_iff.mp hcell).symm

/-- Settles O57: the load, and the store that is neither ignored nor dropped, go through `withCell`. -/
theorem cellAccessOutsideGeometryFaults : Obligations.CellAccessOutsideGeometryFaults := by
  refine fun v s hptr => ⟨withCell_of_not_pointerInRange _ hptr, fun hp hreq => ?_⟩
  rw [exec_wrCellData v hp, if_neg (Bool.eq_false_iff.mp hreq)]
  exact withCell_of_not_pointerInRange _ hptr

end Sys2Proof.Machine
